-- ==== Sys2Proof/Word.lean ====
section
/-! DEFINITION. The bit vectors of the block and the two shapes in which an opcode-table row is written: the 18-bit
command word (30_encoding.md R61) and the 13-bit ROM row image (R69). -/

namespace Sys2Proof

/-- A SegmentPattern `[a,b,c,d,e,f,g,dp]` packed as the spec packs it: bit `k` is element `k`, so bit 0 is segment a
and bit 7 the decimal point (20_memory.md R41). -/
abbrev Pattern := BitVec 8

/-- A digit register: 5 bits, plain binary, 0 to 16 in every reachable state (10_state.md R20, 30_encoding.md R74). -/
abbrev DigitValue := BitVec 5

/-- An operand field of the command word: 8 bits, unsigned (30_encoding.md R63). -/
abbrev Operand := BitVec 8

/-- A word of the opcode table in its own format. `cmd` is a command word, the parallel bundle of inputs sampled once
per operation (30_encoding.md R61). `rom` is the image `iiiiiPGFEDCBA` of a row of the encoder ROM: five address bits,
then the stored word (R69). -/
inductive CodeWord where
  | cmd (w : BitVec 18)
  | rom (w : BitVec 13)
deriving DecidableEq, Repr

end Sys2Proof
end

