-- ==== Sys2Proof/Config.lean ====
section
/-! DEFINITION. What an implementation of the block fixes (00_scope.md R6): the numbers the source fixes, the open
parameters as constants without a body, and the default contents of the encoder table. -/

namespace Sys2Proof

/-- BLANK, the DigitValue 16 (00_scope.md R10). -/
def Config.blank : Nat := 16

/-- The largest valid DigitValue (00_scope.md R6). -/
def Config.maxDigitValue : Nat := 16

/-- The largest digit count (10_state.md R20). -/
def Config.maxDigits : Nat := 8

/-- `S` = STROBE_TICKS of the machine that State.reset describes. OPEN: the spec gives no value (D14), so the constant
has no body and nothing can be proved of it. Assumption log 4. -/
opaque Config.strobeTicks : Nat

/-- ENC_ERROR, row 17 of the encoder table. OPEN, no default, read by no rule (40_encoder.md R82, R86). Assumption
log 5. -/
opaque Config.encError : Pattern

/-- The encoder table of the machine that State.reset describes (40_encoder.md R82). Rows 0, 7 and 16 are the source's;
rows 1 to 6 and 8 to 15 are the spec's default, PRESUMED (customary glyphs, not from the source); row 17 is open.
Assumption log 5. -/
def Config.encTable : Vector Pattern 18 :=
  #v[0x3F#8, 0x06#8, 0x5B#8, 0x4F#8, 0x66#8, 0x6D#8,
    0x7D#8, 0x07#8, 0x7F#8, 0x6F#8, 0x77#8, 0x7C#8,
    0x39#8, 0x5E#8, 0x79#8, 0x71#8, 0x00#8, Config.encError]

end Sys2Proof
end

