-- ==== Sys2Proof/Syntax.lean ====
section
/-! DEFINITION. The instructions, one constructor per row of spec/opcode_table.json; why a word is not one of them; and
what the environment presents in one clock cycle. -/

namespace Sys2Proof

/-- The rows of the opcode table. The four command rows carry both operand fields of the command word, also where the
operation ignores them, so that no bit of a word is lost (30_encoding.md R62, R65). The eighteen ROM rows stand for
ENCODE at the row's index, the lookup inside the Print action, which is no operation the environment can invoke
(00_scope.md R9, 30_encoding.md R60, 40_encoder.md R83); only row 17 leaves its eight data bits open. -/
inductive Instr where
  /-- No operation in this clock cycle (43_tick.md R131); both fields are ignored. -/
  | nop (a b : Operand)
  /-- One time step (43_tick.md R110); both fields are ignored. -/
  | tick (a b : Operand)
  /-- Store `value` at digit `index` (42_set_digit.md R100). -/
  | setDigit (index value : Operand)
  /-- The block's reset (41_initialize.md R90); `initialValue` is ignored (R94). -/
  | init (digitCount initialValue : Operand)
  /-- ENCODE at ROM row 0, glyph 0 (40_encoder.md R82, R83). -/
  | enc0
  /-- ENCODE at ROM row 1, glyph 1 (40_encoder.md R82, R83). -/
  | enc1
  /-- ENCODE at ROM row 2, glyph 2 (40_encoder.md R82, R83). -/
  | enc2
  /-- ENCODE at ROM row 3, glyph 3 (40_encoder.md R82, R83). -/
  | enc3
  /-- ENCODE at ROM row 4, glyph 4 (40_encoder.md R82, R83). -/
  | enc4
  /-- ENCODE at ROM row 5, glyph 5 (40_encoder.md R82, R83). -/
  | enc5
  /-- ENCODE at ROM row 6, glyph 6 (40_encoder.md R82, R83). -/
  | enc6
  /-- ENCODE at ROM row 7, glyph 7 (40_encoder.md R82, R83). -/
  | enc7
  /-- ENCODE at ROM row 8, glyph 8 (40_encoder.md R82, R83). -/
  | enc8
  /-- ENCODE at ROM row 9, glyph 9 (40_encoder.md R82, R83). -/
  | enc9
  /-- ENCODE at ROM row 10, glyph A (40_encoder.md R82, R83). -/
  | enc10
  /-- ENCODE at ROM row 11, glyph b (40_encoder.md R82, R83). -/
  | enc11
  /-- ENCODE at ROM row 12, glyph C (40_encoder.md R82, R83). -/
  | enc12
  /-- ENCODE at ROM row 13, glyph d (40_encoder.md R82, R83). -/
  | enc13
  /-- ENCODE at ROM row 14, glyph E (40_encoder.md R82, R83). -/
  | enc14
  /-- ENCODE at ROM row 15, glyph F (40_encoder.md R82, R83). -/
  | enc15
  /-- ENCODE at ROM row 16, BLANK (40_encoder.md R82, R83). -/
  | enc16
  /-- ENCODE at ROM row 17, the reserved ERROR row, whose contents are open (40_encoder.md R82, R86). -/
  | enc17 (pattern : Pattern)
deriving DecidableEq, Repr

/-- Why a word is no row of the opcode table. Only a ROM row image can be refused: every command word decodes
(30_encoding.md R65). -/
inductive DecodeReject where
  /-- The five address bits name a row above 17 (40_encoder.md R81). -/
  | romIndexOutsideTable
  /-- The address names a row of the table and the data bits are not that row's (30_encoding.md R69). -/
  | romContentsNotInTable
deriving DecidableEq, Repr

/-- What the environment presents in one clock cycle: one command word, or, in the equivalent realisation with request
strobes, the three strobes with the two operands (30_encoding.md R61, R64, 70_reset_and_hazards.md R167). There is no way
to present a ROM row (30_encoding.md R60, R69). -/
inductive Input where
  | word (w : BitVec 18)
  | strobes (initReq setReq tickReq : Bool) (a b : Operand)
deriving DecidableEq, Repr

/-- The row of the encoder ROM that a ROM row names, and nothing for a command row (30_encoding.md R69). -/
def Instr.romRow : Instr → Option Nat
  | .nop _ _ => none
  | .tick _ _ => none
  | .setDigit _ _ => none
  | .init _ _ => none
  | .enc0 => some 0
  | .enc1 => some 1
  | .enc2 => some 2
  | .enc3 => some 3
  | .enc4 => some 4
  | .enc5 => some 5
  | .enc6 => some 6
  | .enc7 => some 7
  | .enc8 => some 8
  | .enc9 => some 9
  | .enc10 => some 10
  | .enc11 => some 11
  | .enc12 => some 12
  | .enc13 => some 13
  | .enc14 => some 14
  | .enc15 => some 15
  | .enc16 => some 16
  | .enc17 _ => some 17

/-- INIT with the second operand left out: it defaults to 16 (30_encoding.md R68). -/
def initOf (digitCount : Operand) : Instr := .init digitCount 16#8

/-- The canonical spelling of TICK: both ignored fields 0 (30_encoding.md R65). -/
def tickOf : Instr := .tick 0#8 0#8

/-- The canonical spelling of NOP: both ignored fields 0 (30_encoding.md R65). -/
def nopOf : Instr := .nop 0#8 0#8

/-- The pseudo-operation `CLEAR index`: it stores BLANK (30_encoding.md R68). -/
def clearOf (index : Operand) : Instr := .setDigit index 16#8

/-- The pseudo-operation `TICK x k`: `k` consecutive TICKs (30_encoding.md R68). -/
def ticksOf (k : Nat) : List Instr := List.replicate k tickOf

end Sys2Proof
end

