-- ==== Sys2Proof/Machine/State.lean ====
section
/-! DEFINITION. The state of the block (10_state.md), the reasons a step can stop, and the state right after reset. -/

namespace Sys2Proof.Machine

/-- The four states of the multiplexer (10_state.md R25), in the order of the source's state table. -/
inductive FsmState where
  | init | idle | print | nextDigit
deriving DecidableEq, Repr

/-- The level held by a pin latch: `undef` until the first Print after an INIT, then low or high (10_state.md R28,
R29). `undef` is the spec's own third value; nothing inside the block reads a pin. Assumption log 6. -/
inductive PinLevel where
  | undef | low | high
deriving DecidableEq, Repr

/-- The outcome of a SET_DIGIT as a label for the model's own bookkeeping; it is no state of the block and no rule reads
it (60_exceptions.md R142). -/
inductive SetDigitLabel where
  | accepted
  /-- `index >= N` (60_exceptions.md R140). -/
  | invalidDigitIndex
  /-- `value > 16` (60_exceptions.md R141). -/
  | invalidDigitValue
deriving DecidableEq, Repr

/-- Why a step stops with a fault. -/
inductive Fault where
  /-- Raised by the Idle action of TICK in a realisation whose strobe counter has a finite width, when the counter is at
  its maximum (70_reset_and_hazards.md R169, 93_implementation_defined.md U7). Safe: the spec asks for it and names no
  value after it. Never raised while the width is unbounded. -/
  | strobeCounterOverflow
  /-- Raised by the Print action of TICK and by SET_DIGIT on an access to a digit register that does not exist. Only a
  state that breaks the invariant can raise it: the index of the Print action is never out of range and SET_DIGIT checks
  its own (20_memory.md R40, R43). Safe. Assumption log 13. -/
  | noDigitRegister
deriving DecidableEq, Repr

/-- Why a step is refused. -/
inductive Refusal where
  /-- Raised by a refused arm of exec: the instruction of this mnemonic has no meaning in the model. No arm raises it.
  Safe. -/
  | notModelled (mnemonic : String)
  /-- Raised by TICK and SET_DIGIT before the first INIT (10_state.md R34). Safe: the spec gives no meaning. -/
  | beforeFirstInit
  /-- Raised by INIT with a digit_count above 8 (41_initialize.md R95). Safe: the spec refuses it. -/
  | digitCountAboveEight
  /-- Raised by the Print action of TICK when the active register holds a value outside the encoder table, which no
  reachable state does (40_encoder.md R85). Safe: the spec refuses it. -/
  | encodeOutsideTable
deriving DecidableEq, Repr

/-- The state: the block's own state and constants (10_state.md), then two fields of the model. -/
structure State where
  /-- `N`, the digit count, 1 to 8 (10_state.md R27). -/
  n : Nat
  /-- `digit_values`, the digit register file: N registers of 5 bits (10_state.md R20). -/
  dv : List DigitValue
  /-- `active_digit`, 3 bits (10_state.md R22). -/
  ad : BitVec 3
  /-- `strobe_counter`, a natural number (10_state.md R23). -/
  sc : Nat
  /-- `pending_redraw` (10_state.md R24). -/
  pr : Bool
  /-- `fsm_state` (10_state.md R25). -/
  st : FsmState
  /-- The segment pin latches SEG[0..7] (10_state.md R28). -/
  seg : Vector PinLevel 8
  /-- The common pin latches COM[0..N-1] (10_state.md R28). -/
  com : List PinLevel
  /-- `S` = STROBE_TICKS, written by no operation (10_state.md R27). -/
  strobeTicks : Nat
  /-- `ENC`, the encoder ROM: 18 rows, written by no operation (10_state.md R27, R30). -/
  enc : Vector Pattern 18
  /-- SC_WIDTH: `none` is the unbounded counter, `some w` a realisation with a counter of `w` bits
  (70_reset_and_hazards.md R169). Written by no operation. Assumption log 8. -/
  scWidth : Option Nat
  /-- The model's own: an INIT has been performed (10_state.md R34), so every pin is an output (41_initialize.md R93).
  Assumption log 7. -/
  initialised : Bool
  /-- The model's own: what the environment has presented and the block has not yet performed. Assumption log 1. -/
  inputs : List Input
deriving DecidableEq, Repr

/-- The machine right after reset. Reset is INIT (70_reset_and_hazards.md R160) and each field stands at its value in
10_state.md R33; the spec leaves INIT's operand open, and here it is 0, so N is 1 (assumption log 3). -/
def State.reset : State where
  n := 1
  dv := [16#5]
  ad := 0#3
  sc := 0
  pr := true
  st := .init
  seg := #v[.undef, .undef, .undef, .undef, .undef, .undef, .undef, .undef]
  com := [.undef]
  strobeTicks := Config.strobeTicks
  enc := Config.encTable
  scWidth := none
  initialised := true
  inputs := []

end Sys2Proof.Machine
end

