-- ==== Sys2Proof/Machine/Operands.lean ====
section
/-! DEFINITION. How operands are read, how the three index spaces are read, and the levels a Print writes. -/

namespace Sys2Proof.Machine

/-- An operand field as the unsigned integer it stands for, 0 to 255 (30_encoding.md R63). -/
def operand (f : Operand) : Nat := f.toNat

/-- What SET_DIGIT makes of its operands: the index is tested first, both tests are unsigned and on the full operand
width (42_set_digit.md R100, R102; 20_memory.md R43). -/
def classifySetDigit (n index value : Nat) : SetDigitLabel :=
  if n ≤ index then .invalidDigitIndex
  else if Config.maxDigitValue < value then .invalidDigitValue
  else .accepted

/-- The effective digit count of an INIT: at least one digit (41_initialize.md R92). -/
def effectiveCount (digitCount : Nat) : Nat := max digitCount 1

/-- ENCODE: the row `v` of the table, and no value for an index outside it (40_encoder.md R83, R85). -/
def encodeValue (enc : Vector Pattern 18) (v : Nat) : Option Pattern := enc[v]?

/-- The level of a pin that is written a boolean: true is logic-high (30_encoding.md R73). -/
def levelOf (b : Bool) : PinLevel := if b then .high else .low

/-- The segment pin levels for a pattern: SEG[k] is element k, unchanged (43_tick.md R121, 30_encoding.md R73). -/
def segmentLevels (p : Pattern) : Vector PinLevel 8 :=
  #v[levelOf (p.getLsbD 0), levelOf (p.getLsbD 1), levelOf (p.getLsbD 2), levelOf (p.getLsbD 3),
    levelOf (p.getLsbD 4), levelOf (p.getLsbD 5), levelOf (p.getLsbD 6), levelOf (p.getLsbD 7)]

/-- The common pin levels that select digit `j` of `n`: `COM[j]` low, all others high (43_tick.md R121). -/
def commonLevels (n j : Nat) : List PinLevel := (List.range n).map (fun k => levelOf (k != j))

/-- Every segment pin at `undef` (41_initialize.md R93). -/
def undefSegments : Vector PinLevel 8 :=
  #v[.undef, .undef, .undef, .undef, .undef, .undef, .undef, .undef]

/-- The digit the active digit is followed by: `(ad + 1) mod N` (43_tick.md R122). -/
def followingDigit (n : Nat) (ad : BitVec 3) : BitVec 3 := BitVec.ofNat 3 ((ad.toNat + 1) % n)

/-- The 2-bit code of a state of the multiplexer (10_state.md R26). -/
def fsmCode : FsmState → BitVec 2
  | .init => 0b00#2
  | .idle => 0b01#2
  | .print => 0b10#2
  | .nextDigit => 0b11#2

/-- The state of the multiplexer that a 2-bit code stands for; all four codes are used (10_state.md R26). -/
def fsmOfCode (c : BitVec 2) : FsmState :=
  if c = 0b00#2 then .init else if c = 0b01#2 then .idle else if c = 0b10#2 then .print else .nextDigit

end Sys2Proof.Machine
end

