-- ==== Sys2Proof/Machine/Flags.lean ====
section
/-! DEFINITION. The block's one flag `pending_redraw` (10_state.md R24) and its one compare, `sc >= S` (43_tick.md
R114). -/

namespace Sys2Proof.Machine

/-- `pr <- true`: by INIT and by every accepted SET_DIGIT, whatever it was (42_set_digit.md R103). -/
def setPending (s : State) : State := { s with pr := true }

/-- `pr <- false`: by the Print action only, whatever it was (43_tick.md R121). -/
def clearPending (s : State) : State := { s with pr := false }

/-- The strobe compare, on natural numbers and with `>=` (43_tick.md R114, 60_exceptions.md R151). -/
def strobeExpired (sc strobeTicks : Nat) : Bool := decide (strobeTicks ≤ sc)

end Sys2Proof.Machine
end

