-- ==== Sys2Proof/Machine/Ops.lean ====
section
/-! DEFINITION. The named operations over the state: the digit register file, the counter, the digit pointer, the pin
latches, the encoder ROM, the input stream. The block takes no exception and returns from none (60_exceptions.md R144,
R145): its two failure kinds are the one operation `failSilently`. -/

namespace Sys2Proof.Machine

/-- A step's outcome on this machine. -/
abbrev Result := Host.Outcome State Fault Refusal

/-- What the two failure kinds of SET_DIGIT do: nothing is raised, recorded or surfaced, the operation completes as a
no-op (60_exceptions.md R140, R141, R144). -/
def failSilently (s : State) : Result := .next s

/-- An operation that has no meaning before the first INIT (10_state.md R34). -/
def afterFirstInit (s : State) (r : Result) : Result :=
  if s.initialised then r else .refused .beforeFirstInit

/-- `st <- st'`, the one write of the transition pass (43_tick.md R117). -/
def enterState (st : FsmState) (s : State) : State := { s with st := st }

/-- `sc <- c`. -/
def setCounter (c : Nat) (s : State) : State := { s with sc := c }

/-- `ad <- d`. -/
def setActive (d : BitVec 3) (s : State) : State := { s with ad := d }

/-- `dv[i] <- v`. -/
def putDigit (i : Nat) (v : DigitValue) (s : State) : State := { s with dv := s.dv.set i v }

/-- All `8 + N` pin latches written at once (43_tick.md R121, R123). -/
def drivePins (seg : Vector PinLevel 8) (com : List PinLevel) (s : State) : State := { s with seg := seg, com := com }

/-- The input stream without what has been taken from it. -/
def setInputs (is : List Input) (s : State) : State := { s with inputs := is }

/-- The state written by an INIT whose effective count is `count`: every field of the display state, the state register
and every pin latch; the constants are not touched (41_initialize.md R90, R91, R93). -/
def startDisplay (count : Nat) (s : State) : State :=
  { s with
    n := count
    dv := List.replicate count (BitVec.ofNat 5 Config.blank)
    ad := 0#3
    sc := 0
    pr := true
    st := .init
    seg := undefSegments
    com := List.replicate count .undef
    initialised := true }

/-- Whether the counter of this machine can hold the value `c` (70_reset_and_hazards.md R169). -/
def counterHolds (scWidth : Option Nat) (c : Nat) : Bool :=
  match scWidth with
  | none => true
  | some w => decide (c < 2 ^ w)

/-- `sc <- sc + 1`, the Idle action; a finite counter at its maximum faults and does not wrap (43_tick.md R120,
70_reset_and_hazards.md R169). -/
def countIdle (s : State) : Result :=
  if counterHolds s.scWidth (s.sc + 1) then .next (setCounter (s.sc + 1) s) else .fault .strobeCounterOverflow

/-- The NextDigit action: `sc <- 0` and `ad <- (ad + 1) mod N` (43_tick.md R122). -/
def advanceDigit (s : State) : Result := .next (setActive (followingDigit s.n s.ad) (setCounter 0 s))

/-- The pins and the flag after a Print that draws the pattern `p` on the active digit (43_tick.md R121). -/
def drawPattern (p : Pattern) (s : State) : State :=
  drivePins (segmentLevels p) (commonLevels s.n s.ad.toNat) (clearPending s)

/-- ENCODE of `v` for a client that goes on with the pattern it returns; outside the table it is refused
(40_encoder.md R83, R85). -/
def withEncode (v : Nat) (client : Pattern → State → Result) (s : State) : Result :=
  match encodeValue s.enc v with
  | none => .refused .encodeOutsideTable
  | some p => client p s

/-- The Print action, ENCODE's one client: ENCODE of the active digit register, then the flag and all pins (43_tick.md
R121; 40_encoder.md R80, R83). -/
def printDigit (s : State) : Result :=
  match s.dv[s.ad.toNat]? with
  | none => .fault .noDigitRegister
  | some v => withEncode v.toNat (fun p t => .next (drawPattern p t)) s

/-- The accepted SET_DIGIT: both writes in one step (42_set_digit.md R101). -/
def storeDigit (index value : Nat) (s : State) : Result :=
  if index < s.dv.length then .next (setPending (putDigit index (BitVec.ofNat 5 value) s))
  else .fault .noDigitRegister

/-- ENCODE by itself, without the client: it reads the row and writes nothing, no state and no flag (40_encoder.md R83,
20_memory.md R47). -/
def lookUp (row : Nat) (s : State) : Result := withEncode row (fun _ t => .next t) s

/-- Take the next input from the stream (30_encoding.md R61: one word is sampled per operation). -/
def takeInput (s : State) : Option (Input × State) :=
  match s.inputs with
  | [] => none
  | i :: rest => some (i, setInputs rest s)

/-- Perform operations one after the other, each completely before the next (20_memory.md R50). -/
def runAll (run : Instr → State → Result) : List Instr → State → Result
  | [], s => .next s
  | i :: rest, s =>
    match run i s with
    | .next t => runAll run rest t
    | .fault r => .fault r
    | .refused r => .refused r

end Sys2Proof.Machine
end

