-- ==== Sys2Proof/Machine/Encoder.lean ====
section
/-! DEFINITION. ENCODE at each row of the encoder ROM (40_encoder.md R82, R83): one definition per ROM row of the opcode
table. It is the lookup inside the Print action, and no input of the environment leads here (30_encoding.md R60;
assumption log 9). -/

namespace Sys2Proof.Machine

/-- ENCODE at row 0 of the encoder ROM (40_encoder.md R83). -/
def execEnc0 (s : State) : Result := lookUp 0 s

/-- ENCODE at row 1 of the encoder ROM (40_encoder.md R83). -/
def execEnc1 (s : State) : Result := lookUp 1 s

/-- ENCODE at row 2 of the encoder ROM (40_encoder.md R83). -/
def execEnc2 (s : State) : Result := lookUp 2 s

/-- ENCODE at row 3 of the encoder ROM (40_encoder.md R83). -/
def execEnc3 (s : State) : Result := lookUp 3 s

/-- ENCODE at row 4 of the encoder ROM (40_encoder.md R83). -/
def execEnc4 (s : State) : Result := lookUp 4 s

/-- ENCODE at row 5 of the encoder ROM (40_encoder.md R83). -/
def execEnc5 (s : State) : Result := lookUp 5 s

/-- ENCODE at row 6 of the encoder ROM (40_encoder.md R83). -/
def execEnc6 (s : State) : Result := lookUp 6 s

/-- ENCODE at row 7 of the encoder ROM (40_encoder.md R83). -/
def execEnc7 (s : State) : Result := lookUp 7 s

/-- ENCODE at row 8 of the encoder ROM (40_encoder.md R83). -/
def execEnc8 (s : State) : Result := lookUp 8 s

/-- ENCODE at row 9 of the encoder ROM (40_encoder.md R83). -/
def execEnc9 (s : State) : Result := lookUp 9 s

/-- ENCODE at row 10 of the encoder ROM (40_encoder.md R83). -/
def execEnc10 (s : State) : Result := lookUp 10 s

/-- ENCODE at row 11 of the encoder ROM (40_encoder.md R83). -/
def execEnc11 (s : State) : Result := lookUp 11 s

/-- ENCODE at row 12 of the encoder ROM (40_encoder.md R83). -/
def execEnc12 (s : State) : Result := lookUp 12 s

/-- ENCODE at row 13 of the encoder ROM (40_encoder.md R83). -/
def execEnc13 (s : State) : Result := lookUp 13 s

/-- ENCODE at row 14 of the encoder ROM (40_encoder.md R83). -/
def execEnc14 (s : State) : Result := lookUp 14 s

/-- ENCODE at row 15 of the encoder ROM (40_encoder.md R83). -/
def execEnc15 (s : State) : Result := lookUp 15 s

/-- ENCODE at row 16 of the encoder ROM (40_encoder.md R83). -/
def execEnc16 (s : State) : Result := lookUp 16 s

/-- The reserved ERROR row: it is never read and its data bits are open, so there is nothing to do (30_encoding.md R66,
40_encoder.md R86). -/
def execEnc17 (_pattern : Pattern) (s : State) : Result := .next s

end Sys2Proof.Machine
end

