-- ==== Sys2Proof/Machine/Initialize.lean ====
section
/-! DEFINITION. INIT, the block's one reset (41_initialize.md). -/

namespace Sys2Proof.Machine

/-- INIT (41_initialize.md R90): refused for a count above 8 (R95), else the display state for `max(digit_count, 1)`
digits (R92); `initial_value` is decoded and ignored (R94). It may be issued at any time (R96). -/
def execInit (digitCount _initialValue : Operand) (s : State) : Result :=
  if Config.maxDigits < operand digitCount then .refused .digitCountAboveEight
  else .next (startDisplay (effectiveCount (operand digitCount)) s)

end Sys2Proof.Machine
end

