-- ==== Sys2Proof/Machine/SetDigit.lean ====
section
/-! DEFINITION. SET_DIGIT, the only externally triggered mutation (42_set_digit.md). -/

namespace Sys2Proof.Machine

/-- SET_DIGIT (42_set_digit.md R100): it stores and sets the flag if both operands are in range, and is a silent no-op
otherwise; before the first INIT it is refused (10_state.md R34). -/
def execSetDigit (index value : Operand) (s : State) : Result :=
  afterFirstInit s
    (match classifySetDigit s.n (operand index) (operand value) with
    | .accepted => storeDigit (operand index) (operand value) s
    | .invalidDigitIndex => failSilently s
    | .invalidDigitValue => failSilently s)

end Sys2Proof.Machine
end

