-- ==== Sys2Proof/Machine/Tick.lean ====
section
/-! DEFINITION. TICK, one transition pass and then the action of the new state, and NOP (43_tick.md). -/

namespace Sys2Proof.Machine

/-- The transition pass: the next state of the multiplexer (43_tick.md R112 to R116). -/
def nextFsm (st : FsmState) (pr : Bool) (sc strobeTicks : Nat) : FsmState :=
  match st with
  | .init => .idle
  | .idle => if pr then .print else if strobeExpired sc strobeTicks then .nextDigit else .idle
  | .print => .idle
  | .nextDigit => .print

/-- The action pass: the action of the new state (43_tick.md R119 to R122). The action of Init is none, and no
transition leads there. -/
def actionOf (st : FsmState) (s : State) : Result :=
  match st with
  | .init => .next s
  | .idle => countIdle s
  | .print => printDigit s
  | .nextDigit => advanceDigit s

/-- Both passes of one TICK, nothing chained (43_tick.md R110, R111). -/
def twoPasses (s : State) : Result :=
  actionOf (nextFsm s.st s.pr s.sc s.strobeTicks) (enterState (nextFsm s.st s.pr s.sc s.strobeTicks) s)

/-- TICK (43_tick.md R110); the fields `a` and `b` are ignored (30_encoding.md R65); before the first INIT it is refused
(10_state.md R34). -/
def execTick (_a _b : Operand) (s : State) : Result := afterFirstInit s (twoPasses s)

/-- NOP (43_tick.md R131): nothing is read and nothing changes, also before the first INIT. -/
def execNop (_a _b : Operand) (s : State) : Result := .next s

end Sys2Proof.Machine
end

