-- ==== Sys2Proof/Machine/Dispatch.lean ====
section
/-! DEFINITION. The meaning of every instruction, one arm per row of the opcode table. -/

namespace Sys2Proof.Machine

def exec (i : Instr) (s : State) : Host.Outcome State Fault Refusal :=
  match i with
  | .nop a b => Sys2Proof.Machine.execNop a b s
  | .tick a b => Sys2Proof.Machine.execTick a b s
  | .setDigit index value => Sys2Proof.Machine.execSetDigit index value s
  | .init digitCount initialValue => Sys2Proof.Machine.execInit digitCount initialValue s
  | .enc0 => Sys2Proof.Machine.execEnc0 s
  | .enc1 => Sys2Proof.Machine.execEnc1 s
  | .enc2 => Sys2Proof.Machine.execEnc2 s
  | .enc3 => Sys2Proof.Machine.execEnc3 s
  | .enc4 => Sys2Proof.Machine.execEnc4 s
  | .enc5 => Sys2Proof.Machine.execEnc5 s
  | .enc6 => Sys2Proof.Machine.execEnc6 s
  | .enc7 => Sys2Proof.Machine.execEnc7 s
  | .enc8 => Sys2Proof.Machine.execEnc8 s
  | .enc9 => Sys2Proof.Machine.execEnc9 s
  | .enc10 => Sys2Proof.Machine.execEnc10 s
  | .enc11 => Sys2Proof.Machine.execEnc11 s
  | .enc12 => Sys2Proof.Machine.execEnc12 s
  | .enc13 => Sys2Proof.Machine.execEnc13 s
  | .enc14 => Sys2Proof.Machine.execEnc14 s
  | .enc15 => Sys2Proof.Machine.execEnc15 s
  | .enc16 => Sys2Proof.Machine.execEnc16 s
  | .enc17 pattern => Sys2Proof.Machine.execEnc17 pattern s

end Sys2Proof.Machine
end

