-- ==== Sys2Proof/WellFormed.lean ====
section
/-! DEFINITION. Which instructions use their operands within the ranges the spec calls legal. The decoder accepts every
command word; a count outside the range is refused when it is executed (30_encoding.md R65). -/

namespace Sys2Proof

/-- The operand range the spec calls legal: INIT's `digit_count` is 0 to 8 (41_initialize.md R90). An out-of-range
operand of SET_DIGIT is not illegal, it is a defined no-op (30_encoding.md R65). -/
def WellFormed : Instr → Bool
  | .nop _ _ => true
  | .tick _ _ => true
  | .setDigit _ _ => true
  | .init digitCount _ => decide (digitCount.toNat ≤ 8)
  | .enc0 => true
  | .enc1 => true
  | .enc2 => true
  | .enc3 => true
  | .enc4 => true
  | .enc5 => true
  | .enc6 => true
  | .enc7 => true
  | .enc8 => true
  | .enc9 => true
  | .enc10 => true
  | .enc11 => true
  | .enc12 => true
  | .enc13 => true
  | .enc14 => true
  | .enc15 => true
  | .enc16 => true
  | .enc17 _ => true

end Sys2Proof
end

