-- ==== Sys2Proof/Decode.lean ====
section
/-! DEFINITION. The decoder of command words (30_encoding.md R61 to R65) and of ROM row images (R69), the encoder, and
the operations that one presented input stands for. -/

namespace Sys2Proof

/-- Field `op`, bits 17:16 of a command word (30_encoding.md R61). -/
def opField (w : BitVec 18) : BitVec 2 := w.extractLsb' 16 2

/-- Field `a`, bits 15:8 of a command word (30_encoding.md R61). -/
def aField (w : BitVec 18) : Operand := w.extractLsb' 8 8

/-- Field `b`, bits 7:0 of a command word (30_encoding.md R61). -/
def bField (w : BitVec 18) : Operand := w.extractLsb' 0 8

/-- The five address bits of a ROM row image (30_encoding.md R69). -/
def romIndexField (w : BitVec 13) : BitVec 5 := w.extractLsb' 8 5

/-- The stored word of a ROM row image (30_encoding.md R69). -/
def romDataField (w : BitVec 13) : Pattern := w.extractLsb' 0 8

/-- The opcode map: the four `op` values cover all words (30_encoding.md R62). -/
def decodeCmd (w : BitVec 18) : Instr :=
  if opField w = 0b00#2 then .nop (aField w) (bField w)
  else if opField w = 0b01#2 then .tick (aField w) (bField w)
  else if opField w = 0b10#2 then .setDigit (aField w) (bField w)
  else .init (aField w) (bField w)

/-- Accept a ROM row image only with the data bits its row has in the table. -/
def romRowIf (data contents : Pattern) (i : Instr) : Except DecodeReject Instr :=
  if data = contents then .ok i else .error .romContentsNotInTable

/-- The eighteen ROM rows (30_encoding.md R69, 40_encoder.md R82): rows 0 to 16 with all data bits fixed, row 17 with
all of them open, no row above 17. -/
def decodeRom (w : BitVec 13) : Except DecodeReject Instr :=
  match (romIndexField w).toNat with
  | 0 => romRowIf (romDataField w) 0x3F#8 .enc0
  | 1 => romRowIf (romDataField w) 0x06#8 .enc1
  | 2 => romRowIf (romDataField w) 0x5B#8 .enc2
  | 3 => romRowIf (romDataField w) 0x4F#8 .enc3
  | 4 => romRowIf (romDataField w) 0x66#8 .enc4
  | 5 => romRowIf (romDataField w) 0x6D#8 .enc5
  | 6 => romRowIf (romDataField w) 0x7D#8 .enc6
  | 7 => romRowIf (romDataField w) 0x07#8 .enc7
  | 8 => romRowIf (romDataField w) 0x7F#8 .enc8
  | 9 => romRowIf (romDataField w) 0x6F#8 .enc9
  | 10 => romRowIf (romDataField w) 0x77#8 .enc10
  | 11 => romRowIf (romDataField w) 0x7C#8 .enc11
  | 12 => romRowIf (romDataField w) 0x39#8 .enc12
  | 13 => romRowIf (romDataField w) 0x5E#8 .enc13
  | 14 => romRowIf (romDataField w) 0x79#8 .enc14
  | 15 => romRowIf (romDataField w) 0x71#8 .enc15
  | 16 => romRowIf (romDataField w) 0x00#8 .enc16
  | 17 => .ok (.enc17 (romDataField w))
  | _ => .error .romIndexOutsideTable

/-- The decoder: total, and a word it does not accept is rejected by name. -/
def decode : CodeWord → Except DecodeReject Instr
  | .cmd w => .ok (decodeCmd w)
  | .rom w => decodeRom w

/-- A command word put together from its three fields (30_encoding.md R61). -/
def cmdWord (op : BitVec 2) (a b : Operand) : CodeWord := .cmd (op ++ a ++ b)

/-- The encoder, from the opcode map (30_encoding.md R62) and the row images of the opcode table (R69). -/
def encode : Instr → CodeWord
  | .nop a b => cmdWord 0b00#2 a b
  | .tick a b => cmdWord 0b01#2 a b
  | .setDigit index value => cmdWord 0b10#2 index value
  | .init digitCount initialValue => cmdWord 0b11#2 digitCount initialValue
  | .enc0 => .rom 0b0000000111111#13
  | .enc1 => .rom 0b0000100000110#13
  | .enc2 => .rom 0b0001001011011#13
  | .enc3 => .rom 0b0001101001111#13
  | .enc4 => .rom 0b0010001100110#13
  | .enc5 => .rom 0b0010101101101#13
  | .enc6 => .rom 0b0011001111101#13
  | .enc7 => .rom 0b0011100000111#13
  | .enc8 => .rom 0b0100001111111#13
  | .enc9 => .rom 0b0100101101111#13
  | .enc10 => .rom 0b0101001110111#13
  | .enc11 => .rom 0b0101101111100#13
  | .enc12 => .rom 0b0110000111001#13
  | .enc13 => .rom 0b0110101011110#13
  | .enc14 => .rom 0b0111001111001#13
  | .enc15 => .rom 0b0111101110001#13
  | .enc16 => .rom 0b1000000000000#13
  | .enc17 pattern => .rom (0b10001#5 ++ pattern)

/-- The word whose bits are `w`, for a row to which the opcode table gives `nbits` bits in whole bytes. The block stores
its words in no bytes (20_memory.md R42), so the width alone tells the formats apart: a ROM row image has 13 bits and a
command word 18. -/
def codeWordOf (nbits w : Nat) : CodeWord :=
  if nbits ≤ 16 then .rom (BitVec.ofNat 13 w) else .cmd (BitVec.ofNat 18 w)

/-- Whether `w` has no bit above the width of its format. -/
def fitsFormat (nbits w : Nat) : Bool :=
  if nbits ≤ 16 then decide (w < 2 ^ 13) else decide (w < 2 ^ 18)

/-- The instruction the decoder reads from the bits `w` of an opcode-table row of `nbits` bits. -/
def decodeTableWord (nbits w : Nat) : Option Instr :=
  if fitsFormat nbits w then (decode (codeWordOf nbits w)).toOption else none

/-- An operation in the spec's one-line syntax, operands in decimal (30_encoding.md R68). A ROM row has no spelling as an
operation; it is written by its row's name (R69). -/
def spelling : Instr → String
  | .nop _ _ => "NOP"
  | .tick _ _ => "TICK"
  | .setDigit index value => "SET_DIGIT " ++ toString index.toNat ++ ", " ++ toString value.toNat
  | .init digitCount initialValue => "INIT " ++ toString digitCount.toNat ++ ", " ++ toString initialValue.toNat
  | .enc0 => "ENC_0"
  | .enc1 => "ENC_1"
  | .enc2 => "ENC_2"
  | .enc3 => "ENC_3"
  | .enc4 => "ENC_4"
  | .enc5 => "ENC_5"
  | .enc6 => "ENC_6"
  | .enc7 => "ENC_7"
  | .enc8 => "ENC_8"
  | .enc9 => "ENC_9"
  | .enc10 => "ENC_10"
  | .enc11 => "ENC_11"
  | .enc12 => "ENC_12"
  | .enc13 => "ENC_13"
  | .enc14 => "ENC_14"
  | .enc15 => "ENC_15"
  | .enc16 => "ENC_16"
  | .enc17 _ => "ENC_17"

/-- The operations that a bundle of request strobes stands for, in the order the spec fixes: INIT alone if it is
presented, otherwise TICK, then SET_DIGIT (70_reset_and_hazards.md R167). -/
def strobedOperations (initReq setReq tickReq : Bool) (a b : Operand) : List Instr :=
  if initReq then [.init a b]
  else (if tickReq then [tickOf] else []) ++ (if setReq then [.setDigit a b] else [])

/-- The operations that one presented input stands for: INIT, SET_DIGIT, TICK and NOP are all that the environment can
invoke (30_encoding.md R60). -/
def operationsOf : Input → List Instr
  | .word w => [decodeCmd w]
  | .strobes initReq setReq tickReq a b => strobedOperations initReq setReq tickReq a b

end Sys2Proof
end

