-- ==== Sys2Proof/Machine/Fetch.lean ====
section
/-! DEFINITION. How a word of the opcode table is placed where the machine uses it next (assumption log 16). The block
stores no program and fetches nothing (30_encoding.md R60): a command word is presented, and a ROM row is looked up by
the one client that ENCODE has, the Print action (40_encoder.md R80, R83). -/

namespace Sys2Proof.Machine

/-- Present a command word ahead of the inputs (30_encoding.md R61). -/
def presentWord (w : BitVec 18) (s : State) : State := setInputs (.word w :: s.inputs) s

/-- Build the row `row` of the encoder ROM from a row image of the opcode table (30_encoding.md R69). An address above 17
names no row. -/
def placeRow (row : BitVec 5) (data : Pattern) (s : State) : State :=
  { s with enc := s.enc.setIfInBounds row.toNat data }

/-- The machine about to draw the value `v` on the active digit: the register holds it, and the next TICK is a Print
(43_tick.md R116, R121). -/
def aimPrint (v : DigitValue) (s : State) : State := enterState .nextDigit (putDigit s.ad.toNat v s)

/-- Place a word of the opcode table. A ROM row is built into the ROM and is what the Print of the next TICK looks up. The
ERROR row is built into the ROM and nothing reads it (30_encoding.md R66, 40_encoder.md R86), so only a NOP is
presented. -/
def placeCodeWord (c : CodeWord) (s : State) : State :=
  match c with
  | .cmd w => presentWord w s
  | .rom w =>
    if romIndexField w = 17#5 then presentWord 0x00000#18 (placeRow (romIndexField w) (romDataField w) s)
    else presentWord 0x10000#18 (aimPrint (romIndexField w) (placeRow (romIndexField w) (romDataField w) s))

end Sys2Proof.Machine
end

