-- ==== Sys2Proof/Machine/Step.lean ====
section
/-! DEFINITION. One step: the next input of the environment's stream, decoded and performed. -/

namespace Sys2Proof.Machine

/-- One step of the machine. It takes the next input from the stream and performs the operations it stands for; with
nothing presented it is the clock cycle without an operation, a NOP (30_encoding.md R60, 43_tick.md R131; assumption
logs 1 and 2). -/
def step (s : State) : Host.Outcome State Fault Refusal :=
  match takeInput s with
  | none => exec nopOf s
  | some (i, t) => runAll exec (operationsOf i) t

/-- `s` with the word of bits `w` of an opcode-table row placed where it is used next. A command word is presented ahead
of the inputs; a ROM row image is what the Print action of the next TICK looks up, since nothing else invokes ENCODE
(30_encoding.md R60, 40_encoder.md R83; assumption log 16). -/
def State.withFetchWord (s : State) (nbits w : Nat) : State :=
  placeCodeWord (codeWordOf nbits w) s

end Sys2Proof.Machine
end

