-- ==== Sys2Proof/Safety.lean ====
section
/-! DEFINITION. What a sound state of the block is (10_state.md R31), what its pins show, and the words that claims about
more than one operation use. -/

namespace Sys2Proof.Machine

/-- The rows of the encoder table that the source fixes (40_encoder.md R82). -/
def SourceRows (enc : Vector Pattern 18) : Prop := enc[0] = 0x3F#8 ∧ enc[7] = 0x07#8 ∧ enc[16] = 0x00#8

/-- The counter of this machine can hold the value `c`; always true of the unbounded counter (70_reset_and_hazards.md
R169). -/
def State.canCountTo (s : State) (c : Nat) : Prop := ∀ w, s.scWidth = some w → c < 2 ^ w

/-- What holds of an initialised machine between two operations (10_state.md R20 to R22, R31). -/
structure Running (s : State) : Prop where
  countPositive : 1 ≤ s.n
  countAtMostEight : s.n ≤ Config.maxDigits
  registers : s.dv.length = s.n
  commonPins : s.com.length = s.n
  /-- Invariant 1 of 10_state.md R31. -/
  activeInRange : s.ad.toNat < s.n
  /-- Invariant 2 of 10_state.md R31. -/
  digitsValid : ∀ v ∈ s.dv, v.toNat ≤ Config.maxDigitValue
  /-- Invariant 6 of 10_state.md R31. -/
  advanceCleared : s.st = .nextDigit → s.sc = 0
  /-- Invariant 6 of 10_state.md R31. -/
  startState : s.st = .init → s.sc = 0 ∧ s.ad = 0#3 ∧ s.pr = true
  /-- The Idle state is entered through an Idle action (43_tick.md R132). -/
  idleCounted : s.st = .idle → 1 ≤ s.sc
  counterFits : s.canCountTo s.sc

/-- What holds of every state of a machine whose constants are as the spec constrains them. -/
structure Sound (s : State) : Prop where
  sourceRows : SourceRows s.enc
  strobeFits : s.canCountTo s.strobeTicks
  running : s.initialised = true → Running s

/-- The digit whose common pin is low after the first Print: the active digit, or, between an advance and the Print that
follows it, the digit before it (10_state.md R31 items 3 and 5). -/
def State.shownDigit (s : State) : Nat :=
  if s.st = .nextDigit then (s.ad.toNat + (s.n - 1)) % s.n else s.ad.toNat

/-- No pin latch has a defined level (10_state.md R29). -/
def State.pinsUndefined (s : State) : Prop := s.seg = undefSegments ∧ s.com = List.replicate s.n .undef

/-- The pins show the value `v` on the digit `j`: the segment pins carry ENCODE of `v`, and `COM[j]` alone is low. -/
def State.pinsShow (s : State) (j v : Nat) : Prop :=
  ∃ p, encodeValue s.enc v = some p ∧ s.seg = segmentLevels p ∧ s.com = commonLevels s.n j

/-- What the display shows: nothing defined before the first Print, which is then still to come; afterwards a valid
DigitValue on the shown digit, and while no redraw is pending the value that digit's register holds (10_state.md R31
items 3 and 5, 70_reset_and_hazards.md R173). -/
def State.displaySound (s : State) : Prop :=
  (s.pinsUndefined ∧ (s.st = .init ∨ s.st = .idle ∧ s.pr = true)) ∨
  (s.st ≠ .init ∧ ∃ v, v ≤ Config.maxDigitValue ∧ s.pinsShow s.shownDigit v ∧
    (s.pr = false → ∃ d, s.dv[s.shownDigit]? = some d ∧ d.toNat = v))

/-- The next state, if the outcome is one. -/
def nextOf : Result → Option State
  | .next t => some t
  | .fault _ => none
  | .refused _ => none

/-- An outcome with its next state changed by `f`. -/
def mapNext (f : State → State) : Result → Result
  | .next t => .next (f t)
  | .fault r => .fault r
  | .refused r => .refused r

/-- Operations performed one after the other (20_memory.md R50). -/
def performAll (is : List Instr) (s : State) : Result := runAll exec is s

/-- SET_DIGIT operands that are both in range (42_set_digit.md R101). -/
def State.accepts (s : State) (index value : Operand) : Prop :=
  operand index < s.n ∧ operand value ≤ Config.maxDigitValue

/-- `max(S, 1)`: the Idle TICKs of one dwell (43_tick.md R125). -/
def State.idleTicks (s : State) : Nat := max s.strobeTicks 1

/-- The machine with another value of the constant S. -/
def State.withStrobeTicks (c : Nat) (s : State) : State := { s with strobeTicks := c }

/-- The machine with other contents of the ERROR row. -/
def State.withErrorRow (p : Pattern) (s : State) : State := { s with enc := s.enc.set 17 p }

end Sys2Proof.Machine
end

