-- ==== Sys2Proof/Certificates/Slice0/Obligations.lean ====
section
/-! DEFINITION. The statements for the provers. Each docstring names the rule of spec/ that is formalised, or says that
the statement is about a choice of the model and names its log entry. -/

open Sys2Proof Sys2Proof.Machine

section Encoding

/-- Decode and encode agree: no bit of an instruction is dropped (30_encoding.md R61, R62, R69). -/
def Obligations.DecodeOfEncodeIsTheInstruction : Prop := ∀ i : Instr, decode (encode i) = .ok i

/-- The other direction: a word that decodes is the encoding of what it decodes to (30_encoding.md R61, R62, R69). It
rests on two choices of the model: NOP, TICK and INIT carry the fields that they ignore, where 30_encoding.md R65 counts
all such words as one operation (log 14), and a ROM row image decodes only with the data bits it has in the opcode table
(log 10). -/
def Obligations.EncodeOfDecodeIsTheWord : Prop := ∀ (c : CodeWord) (i : Instr), decode c = .ok i → encode i = c

/-- 30_encoding.md R62: a word selects the row with `(w & mask) = match`, its operands are the two fields, and the four
rows cover all words. -/
def Obligations.CommandWordsDecodeByMaskAndMatch : Prop :=
  ∀ w : BitVec 18,
    (w &&& 0x30000#18 = 0x00000#18 → decode (.cmd w) = .ok (.nop (w.extractLsb' 8 8) (w.extractLsb' 0 8))) ∧
    (w &&& 0x30000#18 = 0x10000#18 → decode (.cmd w) = .ok (.tick (w.extractLsb' 8 8) (w.extractLsb' 0 8))) ∧
    (w &&& 0x30000#18 = 0x20000#18 → decode (.cmd w) = .ok (.setDigit (w.extractLsb' 8 8) (w.extractLsb' 0 8))) ∧
    (w &&& 0x30000#18 = 0x30000#18 → decode (.cmd w) = .ok (.init (w.extractLsb' 8 8) (w.extractLsb' 0 8))) ∧
    (w &&& 0x30000#18 = 0x00000#18 ∨ w &&& 0x30000#18 = 0x10000#18 ∨ w &&& 0x30000#18 = 0x20000#18 ∨
      w &&& 0x30000#18 = 0x30000#18)

/-- Words the spec writes out decode to the operations it names (95_test_vectors.md V8, 41_initialize.md R90,
42_set_digit.md R100; the ROM rows from the opcode table). -/
def Obligations.WordsOfTheSpecDecode : Prop :=
  decode (.cmd 0x0ABCD#18) = .ok (.nop 0xAB#8 0xCD#8) ∧
  decode (.cmd 0x10000#18) = .ok (.tick 0#8 0#8) ∧
  decode (.cmd 0x20107#18) = .ok (.setDigit 1#8 7#8) ∧
  decode (.cmd 0x30310#18) = .ok (.init 3#8 16#8) ∧
  decode (.rom 0b0011100000111#13) = .ok .enc7 ∧
  decode (.rom 0b1000100000000#13) = .ok (.enc17 0#8)

/-- 30_encoding.md R65: the fields of NOP and TICK are ignored, all values give the same operation. -/
def Obligations.IgnoredFieldsDoNotMatter : Prop :=
  ∀ (a b : Operand) (s : State),
    exec (.nop a b) s = exec (.nop 0#8 0#8) s ∧ exec (.tick a b) s = exec (.tick 0#8 0#8) s

/-- 10_state.md R26: the 2-bit code of each state of the multiplexer, and that the four codes are all used. -/
def Obligations.FsmCodesAreAllUsed : Prop :=
  fsmCode .init = 0b00#2 ∧ fsmCode .idle = 0b01#2 ∧ fsmCode .print = 0b10#2 ∧ fsmCode .nextDigit = 0b11#2 ∧
  (∀ c : BitVec 2, fsmCode (fsmOfCode c) = c) ∧ (∀ st : FsmState, fsmOfCode (fsmCode st) = st)

end Encoding

section Step

/-- A step runs the decoded instruction: when the next presented word decodes, the step is exec of the instruction at the
state without that word. The input stream is the model's choice (log 1). -/
def Obligations.StepRunsTheDecodedInstruction : Prop :=
  ∀ (s : State) (w : BitVec 18) (rest : List Input) (i : Instr),
    s.inputs = .word w :: rest → decode (.cmd w) = .ok i → step s = exec i { s with inputs := rest }

/-- A word of the opcode table placed for the next step is what that step uses (the model's choice, log 16). A command
word is run. A ROM row is built into the ROM and drawn by the step, whose Print looks it up; the ERROR row is built into
the ROM and read by nothing. -/
def Obligations.FetchedWordIsRun : Prop :=
  ∀ (s : State) (nbits w : Nat) (i : Instr), decodeTableWord nbits w = some i →
    (i.romRow = none → step (s.withFetchWord nbits w) = exec i s) ∧
    ∀ (row : BitVec 5) (data : Pattern), encode i = .rom (row ++ data) →
      (row = 17#5 → step (s.withFetchWord nbits w) = .next { s with enc := s.enc.setIfInBounds 17 data }) ∧
      (row ≠ 17#5 → s.initialised = true → s.ad.toNat < s.dv.length →
        step (s.withFetchWord nbits w) = .next
          { s with
            st := .print
            pr := false
            dv := s.dv.set s.ad.toNat row
            enc := s.enc.setIfInBounds row.toNat data
            seg := segmentLevels data
            com := commonLevels s.n s.ad.toNat })

/-- The environment can invoke INIT, SET_DIGIT, TICK and NOP and nothing else, and a step performs what is presented and
nothing else; ENCODE is no operation that it can invoke (30_encoding.md R60; the stream is the model's choice, log 1). -/
def Obligations.OnlyTheFourOperationsCanBeInvoked : Prop :=
  (∀ (x : Input) (i : Instr), i ∈ operationsOf x →
    ∃ a b, i = .init a b ∨ i = .setDigit a b ∨ i = .tick a b ∨ i = .nop a b) ∧
  ∀ (s : State) (x : Input) (rest : List Input), s.inputs = x :: rest →
    step s = performAll (operationsOf x) { s with inputs := rest }

/-- With nothing presented a step is a clock cycle without an operation: nothing changes (30_encoding.md R60, 43_tick.md
R131; read by inference, log 2). -/
def Obligations.StepWithoutInputChangesNothing : Prop := ∀ s : State, s.inputs = [] → step s = .next s

/-- Requests presented in one cycle are performed INIT alone, otherwise TICK, then SET_DIGIT
(70_reset_and_hazards.md R167); without a request nothing changes (43_tick.md R131). The rest is the model's choice
(log 11): that one step performs both operations, that INIT and SET_DIGIT share the ports a and b, and the two clauses on
a TICK that stops, in which the step stops with its reason and the SET_DIGIT is not performed. -/
def Obligations.StrobedRequestsHaveASerialOrder : Prop :=
  ∀ (s : State) (rest : List Input) (a b : Operand),
    (∀ set tick : Bool, s.inputs = .strobes true set tick a b :: rest →
      step s = exec (.init a b) { s with inputs := rest }) ∧
    (s.inputs = .strobes false true true a b :: rest →
      (∀ t, exec tickOf { s with inputs := rest } = .next t → step s = exec (.setDigit a b) t) ∧
      (∀ f, exec tickOf { s with inputs := rest } = .fault f → step s = .fault f) ∧
      (∀ r, exec tickOf { s with inputs := rest } = .refused r → step s = .refused r)) ∧
    (s.inputs = .strobes false false true a b :: rest → step s = exec tickOf { s with inputs := rest }) ∧
    (s.inputs = .strobes false true false a b :: rest → step s = exec (.setDigit a b) { s with inputs := rest }) ∧
    (s.inputs = .strobes false false false a b :: rest → step s = .next { s with inputs := rest })

/-- A ROM row image whose address is above 17 is no row: it is rejected by name (40_encoder.md R81), and a step for which
it has been placed has its lookup refused (40_encoder.md R85; how it is placed is the model's choice, log 16). -/
def Obligations.StepRefusesRomRowsOutsideTheTable : Prop :=
  ∀ w : BitVec 13, 17 < (w.extractLsb' 8 5).toNat →
    decode (.rom w) = .error .romIndexOutsideTable ∧
    ∀ s : State, s.initialised = true → s.ad.toNat < s.dv.length →
      step (s.withFetchWord 16 w.toNat) = .refused .encodeOutsideTable

end Step

section NopAndInit

/-- 43_tick.md R131: op 00 is NOP whatever the fields, and NOP changes nothing in any state, also before the first
INIT. -/
def Obligations.NopChangesNothing : Prop :=
  (∀ w : BitVec 18, w &&& 0x30000#18 = 0x00000#18 → ∃ a b, decode (.cmd w) = .ok (.nop a b)) ∧
  ∀ (a b : Operand) (s : State), exec (.nop a b) s = .next s

/-- 10_state.md R33: the value of every piece of state immediately after INIT. INIT completes from every state for every
count the spec calls legal. -/
def Obligations.InitLeavesTheResetValues : Prop :=
  ∀ (a b : Operand) (s : State), a.toNat ≤ 8 →
    ∃ t, exec (.init a b) s = .next t ∧
      t.n = max a.toNat 1 ∧
      t.dv = List.replicate (max a.toNat 1) 16#5 ∧
      t.ad = 0#3 ∧
      t.sc = 0 ∧
      t.pr = true ∧
      t.st = .init ∧
      t.seg = Vector.replicate 8 .undef ∧
      t.com = List.replicate (max a.toNat 1) .undef ∧
      t.strobeTicks = s.strobeTicks ∧ t.enc = s.enc ∧ t.scWidth = s.scWidth

/-- 41_initialize.md R95: a count above 8 is refused, not clamped and not accepted. -/
def Obligations.InitRefusesMoreThanEightDigits : Prop :=
  ∀ (a b : Operand) (s : State), 8 < a.toNat → exec (.init a b) s = .refused .digitCountAboveEight

/-- 41_initialize.md R94: `initial_value` is decoded and discarded; every digit register is 16 after INIT. -/
def Obligations.InitialValueHasNoEffect : Prop :=
  ∀ (a b c : Operand) (s : State),
    exec (.init a b) s = exec (.init a c) s ∧
    ∀ t, exec (.init a b) s = .next t → ∀ v ∈ t.dv, v = 16#5

/-- 41_initialize.md R92: INIT 0 and INIT 1 produce the same state, with one digit register and one common pin, in which
SET_DIGIT 0 is accepted. -/
def Obligations.InitOfZeroDigitsIsOneDigit : Prop :=
  ∀ (b c : Operand) (s : State),
    exec (.init 0#8 b) s = exec (.init 1#8 c) s ∧
    ∃ t, exec (.init 0#8 b) s = .next t ∧ t.n = 1 ∧ t.dv.length = 1 ∧ t.com.length = 1 ∧
      ∀ v : Operand, v.toNat ≤ 16 →
        exec (.setDigit 0#8 v) t = .next { t with dv := [BitVec.ofNat 5 v.toNat], pr := true }

/-- Nothing of an earlier state survives an INIT: from two states with the same constants and the same operations still
to come, it leads to the same state (41_initialize.md R91, R96). That it records that an INIT has been performed is
the model's choice (log 7). -/
def Obligations.InitForgetsTheEarlierState : Prop :=
  ∀ (a b : Operand) (s u : State),
    s.strobeTicks = u.strobeTicks → s.enc = u.enc → s.scWidth = u.scWidth → s.inputs = u.inputs →
      exec (.init a b) s = exec (.init a b) u ∧
      ∀ t, exec (.init a b) s = .next t → t.initialised = true

/-- The state right after reset is the state an INIT with the count 0 leaves, with the values of 10_state.md R33; that
the operand is 0 is the model's choice (log 3). -/
def Obligations.ResetIsTheStateAfterInit : Prop :=
  (∀ b : Operand, exec (.init 0#8 b) State.reset = .next State.reset) ∧
  State.reset.n = 1 ∧ State.reset.dv = [16#5] ∧ State.reset.ad = 0#3 ∧ State.reset.sc = 0 ∧
  State.reset.pr = true ∧ State.reset.st = .init ∧ State.reset.pinsUndefined ∧ State.reset.inputs = []

end NopAndInit

section SetDigit

/-- 42_set_digit.md R101, R103: an accepted SET_DIGIT stores the operand itself and sets the flag, also for an unchanged
value, for another digit than the active one and when the flag is already set; nothing else changes. -/
def Obligations.AcceptedSetDigitStoresAndSetsTheFlag : Prop :=
  ∀ (index value : Operand) (s : State),
    s.initialised = true → s.dv.length = s.n → index.toNat < s.n → value.toNat ≤ 16 →
      exec (.setDigit index value) s = .next
        { s with dv := s.dv.set index.toNat (BitVec.ofNat 5 value.toNat), pr := true } ∧
      (BitVec.ofNat 5 value.toNat).toNat = value.toNat

/-- 42_set_digit.md R102: a SET_DIGIT with an operand out of range is exactly a NOP; there is no wrap of a large index
and no truncation of a large value. -/
def Obligations.RejectedSetDigitIsANop : Prop :=
  ∀ (index value : Operand) (s : State),
    s.initialised = true → (s.n ≤ index.toNat ∨ 16 < value.toNat) →
      exec (.setDigit index value) s = .next s ∧ exec (.setDigit index value) s = exec (.nop 0#8 0#8) s

/-- 42_set_digit.md R104: SET_DIGIT does not change the state register, the counter, the pointer, a pin, another digit
register, the digit count or a constant, and it does not read the first three: with other values in them it does the
same. -/
def Obligations.SetDigitLeavesTheRestAlone : Prop :=
  ∀ (index value : Operand) (s t : State), exec (.setDigit index value) s = .next t →
    t.st = s.st ∧ t.sc = s.sc ∧ t.ad = s.ad ∧ t.seg = s.seg ∧ t.com = s.com ∧ t.n = s.n ∧
    t.strobeTicks = s.strobeTicks ∧ t.enc = s.enc ∧ t.scWidth = s.scWidth ∧ t.initialised = s.initialised ∧
    t.inputs = s.inputs ∧
    (∀ j : Nat, j ≠ index.toNat → t.dv[j]? = s.dv[j]?) ∧
    ∀ (x : FsmState) (c : Nat) (d : BitVec 3),
      exec (.setDigit index value) { s with st := x, sc := c, ad := d } = .next { t with st := x, sc := c, ad := d }

/-- 10_state.md R34: TICK and SET_DIGIT have no meaning before the first INIT, whatever the state holds; the flag that
tells such a state is the model's own (log 7). -/
def Obligations.NoTickOrSetDigitBeforeTheFirstInit : Prop :=
  ∀ (a b : Operand) (s : State), s.initialised = false →
    exec (.tick a b) s = .refused .beforeFirstInit ∧ exec (.setDigit a b) s = .refused .beforeFirstInit

/-- A SET_DIGIT and an INIT issued twice in a row leave the state they leave when issued once (20_memory.md R47). -/
def Obligations.RepeatedSetDigitAndInitAreIdempotent : Prop :=
  ∀ (a b : Operand) (s t : State),
    (exec (.setDigit a b) s = .next t → exec (.setDigit a b) t = .next t) ∧
    (exec (.init a b) s = .next t → exec (.init a b) t = .next t)

/-- Of two SET_DIGITs to one index the later wins, and the earlier leaves no trace (20_memory.md R50 item 3, R53). -/
def Obligations.LaterSetDigitWins : Prop :=
  ∀ (index first second : Operand) (s t : State),
    exec (.setDigit index first) s = .next t → second.toNat ≤ 16 →
      exec (.setDigit index second) t = exec (.setDigit index second) s

end SetDigit

section Tick

/-- 43_tick.md R112 to R116: the source's state table, transitions and actions. In every sound state a TICK completes; a
pending redraw is tested before the strobe. -/
def Obligations.TickFollowsTheStateTable : Prop :=
  ∀ (a b : Operand) (s : State), Sound s → s.initialised = true → s.canCountTo (s.sc + 1) →
    ∃ t, exec (.tick a b) s = .next t ∧
      (s.st = .init → t.st = .idle) ∧
      (s.st = .idle → t.st = if s.pr then .print else if s.strobeTicks ≤ s.sc then .nextDigit else .idle) ∧
      (s.st = .print → t.st = .idle) ∧
      (s.st = .nextDigit → t.st = .print) ∧
      (t.st = .idle → t = { s with st := .idle, sc := s.sc + 1 }) ∧
      (t.st = .print →
        t = { s with st := .print, pr := false, seg := t.seg, com := t.com } ∧
        ∃ v, s.dv[s.ad.toNat]? = some v ∧ t.pinsShow s.ad.toNat v.toNat) ∧
      (t.st = .nextDigit →
        t = { s with st := .nextDigit, sc := 0, ad := BitVec.ofNat 3 ((s.ad.toNat + 1) % s.n) })

/-- 43_tick.md R120: the Idle action counts, whichever state it came from and also past S; a finite counter at its
maximum faults. -/
def Obligations.IdleActionCounts : Prop :=
  ∀ (a b : Operand) (s : State), s.initialised = true →
    (s.st = .init ∨ s.st = .print ∨ s.st = .idle ∧ s.pr = false ∧ s.sc < s.strobeTicks) →
      (s.canCountTo (s.sc + 1) → exec (.tick a b) s = .next { s with st := .idle, sc := s.sc + 1 }) ∧
      (∀ w, s.scWidth = some w → s.sc + 1 = 2 ^ w → exec (.tick a b) s = .fault .strobeCounterOverflow)

/-- 43_tick.md R121: the Print action clears the flag and writes all `8 + N` pins, whatever the counter is; and a pin is
written by no other action and no other operation, but for INIT, which leaves it undefined. -/
def Obligations.PrintActionDrawsTheActiveDigit : Prop :=
  (∀ (a b : Operand) (s : State), Sound s → s.initialised = true →
    (s.st = .nextDigit ∨ s.st = .idle ∧ s.pr = true) →
      ∃ v p t, s.dv[s.ad.toNat]? = some v ∧ encodeValue s.enc v.toNat = some p ∧
        exec (.tick a b) s = .next t ∧
        t = { s with st := .print, pr := false, seg := t.seg, com := t.com } ∧
        (∀ k, ∀ h : k < 8, t.seg[k] = if p.getLsbD k then .high else .low) ∧
        t.com.length = s.n ∧
        (∀ j, j < s.n → t.com[j]? = some (if j = s.ad.toNat then .low else .high))) ∧
  (∀ (i : Instr) (s t : State), exec i s = .next t → (t.seg ≠ s.seg ∨ t.com ≠ s.com) →
    (∃ a b, i = .tick a b) ∧ t.st = .print ∨ (∃ a b, i = .init a b) ∧ t.pinsUndefined)

/-- 43_tick.md R122: the NextDigit action clears the counter and advances the pointer modulo N; the last digit is followed
by digit 0; the flag, the registers and the pins are untouched. -/
def Obligations.NextDigitActionAdvances : Prop :=
  ∀ (a b : Operand) (s : State), Sound s → s.initialised = true →
    s.st = .idle → s.pr = false → s.strobeTicks ≤ s.sc →
      ∃ t, exec (.tick a b) s = .next t ∧
        t = { s with st := .nextDigit, sc := 0, ad := t.ad } ∧
        t.ad.toNat = (s.ad.toNat + 1) % s.n ∧
        (s.ad.toNat = s.n - 1 → t.ad = 0#3)

/-- 43_tick.md R119: no TICK leads to Init, so the action of Init is never performed. -/
def Obligations.NoTickLeadsToInit : Prop :=
  ∀ (a b : Operand) (s t : State), exec (.tick a b) s = .next t → t.st ≠ .init

/-- Who changes the flag: it falls only in a TICK whose new state is Print, and rises only by INIT and by an accepted
SET_DIGIT (10_state.md R24, R31 item 4). -/
def Obligations.FlagFallsOnlyInAPrint : Prop :=
  ∀ (i : Instr) (s t : State), exec i s = .next t →
    (s.pr = true → t.pr = false → (∃ a b, i = .tick a b) ∧ t.st = .print) ∧
    (s.pr = false → t.pr = true →
      (∃ a b, i = .init a b) ∨ ∃ index value, i = .setDigit index value ∧ s.accepts index value)

/-- No operation writes S, ENC or the counter's width, and N changes only by INIT, which makes it 1 to 8 (10_state.md
R27, 70_reset_and_hazards.md R174). -/
def Obligations.ConstantsAreFixedAndOnlyInitSetsTheCount : Prop :=
  ∀ (i : Instr) (s t : State), exec i s = .next t →
    t.strobeTicks = s.strobeTicks ∧ t.enc = s.enc ∧ t.scWidth = s.scWidth ∧ t.inputs = s.inputs ∧
    (t.n ≠ s.n → ∃ a b, i = .init a b ∧ t.n = max a.toNat 1 ∧ t.n ≤ 8)

/-- A digit register changes only by a SET_DIGIT to it and by INIT (10_state.md R20, R35). -/
def Obligations.DigitRegistersAreWrittenOnlyBySetDigitAndInit : Prop :=
  ∀ (i : Instr) (s t : State), exec i s = .next t → ∀ j : Nat, t.dv[j]? ≠ s.dv[j]? →
    (∃ a b, i = .init a b) ∨
    ∃ index value, i = .setDigit index value ∧ index.toNat = j ∧ value.toNat ≤ 16 ∧
      ∃ v, t.dv[j]? = some v ∧ v.toNat = value.toNat

/-- After exactly N advances the pointer is back where it was, and it never leaves the range of the registers
(10_state.md R22). -/
def Obligations.PointerReturnsAfterAllDigits : Prop :=
  ∀ (n : Nat) (ad : BitVec 3), n ≤ 8 → ad.toNat < n →
    (∀ k : Nat, ((followingDigit n)^[k] ad).toNat < n) ∧ (followingDigit n)^[n] ad = ad

end Tick

section Invariants

/-- Every step, whatever it is presented, keeps the state sound: pointer below N, every register a DigitValue, N
registers and N common pins, the counter cleared by an advance (10_state.md R31 items 1, 2 and 6, 60_exceptions.md
R156). -/
def Obligations.StepKeepsTheStateSound : Prop := ∀ s t : State, Sound s → step s = .next t → Sound t

/-- The state right after reset is sound; its digit count and its default table are the model's choice (logs 3, 5). -/
def Obligations.ResetIsSound : Prop :=
  Sound State.reset

/-- What the display shows, kept by every step: undefined pins only until the first Print, which is then still to come;
afterwards one valid DigitValue on the shown digit, and while no redraw is pending the value in that digit's register
(10_state.md R31 items 3 and 5, 70_reset_and_hazards.md R163, R173). -/
def Obligations.StepKeepsTheDisplaySound : Prop :=
  ∀ s t : State, Sound s → (s.initialised = true → s.displaySound) → step s = .next t →
    t.initialised = true → t.displaySound

/-- The display is sound right after reset: its pins are undefined (10_state.md R29; the reset state is log 3). -/
def Obligations.ResetDisplayIsSound : Prop := State.reset.displaySound

/-- In a sound state that has drawn, exactly one common pin is low, it is the shown digit's, all others are high, and
every segment pin has a defined level (10_state.md R31 item 3, R29). -/
def Obligations.ExactlyOneCommonPinIsLow : Prop :=
  ∀ s : State, Sound s → s.initialised = true → s.displaySound → ¬ s.pinsUndefined →
    s.com.count .low = 1 ∧ s.com.length = s.n ∧ s.com[s.shownDigit]? = some .low ∧
    (∀ j, j < s.n → j ≠ s.shownDigit → s.com[j]? = some .high) ∧
    ∀ k, ∀ h : k < 8, s.seg[k] ≠ .undef

/-- Nothing reads the ERROR row: in a sound state every instruction does the same whatever the row holds, so its contents
never reach the pins (40_encoder.md R86, 30_encoding.md R66). -/
def Obligations.ErrorRowHasNoInfluence : Prop :=
  ∀ (i : Instr) (s : State) (p : Pattern), Sound s →
    exec i (s.withErrorRow p) = mapNext (State.withErrorRow p) (exec i s)

end Invariants

section Schedule

/-- The first draw is in the second TICK after INIT: after one TICK the pins are undefined and the redraw is pending,
after two digit 0 is drawn, dark, with its common pin low (43_tick.md R124). -/
def Obligations.FirstDrawIsInTheSecondTick : Prop :=
  ∀ (a b : Operand) (s : State), a.toNat ≤ 8 → SourceRows s.enc → s.canCountTo 1 →
    ∃ t u, performAll [.init a b, tickOf] s = .next t ∧
      t.st = .idle ∧ t.ad = 0#3 ∧ t.sc = 1 ∧ t.pr = true ∧ t.pinsUndefined ∧
      performAll [.init a b, tickOf, tickOf] s = .next u ∧
      u.st = .print ∧ u.ad = 0#3 ∧ u.sc = 1 ∧ u.pr = false ∧
      (∀ k, ∀ h : k < 8, u.seg[k] = .low) ∧
      ∀ j, j < u.n → u.com[j]? = some (if j = 0 then .low else .high)

/-- The steady-state dwell: from a Print reached by an advance, `m = max(S, 1)` Idle TICKs, one NextDigit TICK and the
Print of the next digit, with the pins unchanged until then (43_tick.md R125). -/
def Obligations.DwellIsIdleTicksPlusTwo : Prop :=
  ∀ s : State, Sound s → s.initialised = true → s.st = .print → s.pr = false → s.sc = 0 →
    s.canCountTo s.idleTicks →
      (∀ k, 1 ≤ k → k ≤ s.idleTicks → performAll (ticksOf k) s = .next { s with st := .idle, sc := k }) ∧
      performAll (ticksOf (s.idleTicks + 1)) s = .next { s with st := .nextDigit, ad := followingDigit s.n s.ad } ∧
      ∃ v p, s.dv[(s.ad.toNat + 1) % s.n]? = some v ∧ encodeValue s.enc v.toNat = some p ∧
        performAll (ticksOf (s.idleTicks + 2)) s = .next
          { s with
            ad := followingDigit s.n s.ad
            seg := segmentLevels p
            com := commonLevels s.n ((s.ad.toNat + 1) % s.n) }

/-- A full cycle takes `N * (max(S, 1) + 2)` TICKs and returns to the very same state, pins included (43_tick.md R125,
70_reset_and_hazards.md R177). -/
def Obligations.FullCycleReturnsToTheSameState : Prop :=
  ∀ s : State, Sound s → s.initialised = true → s.displaySound → s.st = .print → s.pr = false → s.sc = 0 →
    s.canCountTo s.idleTicks → performAll (ticksOf (s.n * (s.idleTicks + 2))) s = .next s

/-- A valid SET_DIGIT is followed by a Print of the active digit within two TICKs and without an advance: by the next
TICK from Idle and NextDigit, by the one after from Init and Print (43_tick.md R129). -/
def Obligations.RedrawFollowsWithinTwoTicks : Prop :=
  ∀ (index value : Operand) (s : State), Sound s → s.initialised = true → s.accepts index value →
    ((s.st = .idle ∨ s.st = .nextDigit) →
      ∃ t, performAll [.setDigit index value, tickOf] s = .next t ∧
        t.st = .print ∧ t.ad = s.ad ∧ t.sc = s.sc ∧ t.pr = false ∧
        ∃ v, t.dv[s.ad.toNat]? = some v ∧ t.pinsShow s.ad.toNat v.toNat) ∧
    ((s.st = .init ∨ s.st = .print) → s.canCountTo (s.sc + 1) →
      ∃ t, performAll [.setDigit index value, tickOf, tickOf] s = .next t ∧
        t.st = .print ∧ t.ad = s.ad ∧ t.sc = s.sc + 1 ∧ t.pr = false ∧
        ∃ v, t.dv[s.ad.toNat]? = some v ∧ t.pinsShow s.ad.toNat v.toNat)

/-- A pending redraw delays an advance that is due by two TICKs: Print, then Idle with the counter past S, and only then
NextDigit (43_tick.md R128). -/
def Obligations.PendingRedrawDelaysTheAdvance : Prop :=
  ∀ s : State, Sound s → s.initialised = true → s.st = .idle → s.pr = true → s.strobeTicks ≤ s.sc →
    s.canCountTo (s.sc + 1) →
      ∃ t, performAll (ticksOf 1) s = .next t ∧ t.st = .print ∧ t.ad = s.ad ∧ t.sc = s.sc ∧ t.pr = false ∧
        performAll (ticksOf 2) s = .next { t with st := .idle, sc := s.sc + 1 } ∧
        performAll (ticksOf 3) s = .next { t with st := .nextDigit, sc := 0, ad := followingDigit s.n s.ad }

/-- S = 0 behaves exactly as S = 1 in every sound state (43_tick.md R132). -/
def Obligations.ZeroStrobeTicksBehaveAsOne : Prop :=
  ∀ (a b : Operand) (s : State), Sound s → s.initialised = true →
    exec (.tick a b) (s.withStrobeTicks 0) = mapNext (State.withStrobeTicks 0) (exec (.tick a b) (s.withStrobeTicks 1))

/-- Starvation: with a valid SET_DIGIT after every Print the pointer never moves, however long that goes on, and the
counter grows by one in every two TICKs (70_reset_and_hazards.md R168). -/
def Obligations.StoresAfterEveryPrintStarveTheAdvance : Prop :=
  ∀ (rounds : List (Operand × Operand)) (s : State), Sound s → s.initialised = true → s.st = .print →
    (∀ r ∈ rounds, s.accepts r.1 r.2) → s.canCountTo (s.sc + rounds.length) →
      ∃ t, performAll (rounds.flatMap (fun r => [.setDigit r.1 r.2, tickOf, tickOf])) s = .next t ∧
        t.st = .print ∧ t.ad = s.ad ∧ t.sc = s.sc + rounds.length

end Schedule

section Encoder

/-- ENCODE of a row returns that row of the table and writes nothing: the lookup of each row completes in every state and
leaves it as it is (40_encoder.md R83, 20_memory.md R47). That the opcode table's ROM rows stand for these lookups is the
model's choice (log 9). -/
def Obligations.EncodeRowsReturnTheTable : Prop :=
  ∀ (s : State) (p : Pattern),
    (∀ v, ∀ h : v < 18, encodeValue s.enc v = some s.enc[v]) ∧
    exec .enc0 s = .next s ∧
    exec .enc1 s = .next s ∧
    exec .enc2 s = .next s ∧
    exec .enc3 s = .next s ∧
    exec .enc4 s = .next s ∧
    exec .enc5 s = .next s ∧
    exec .enc6 s = .next s ∧
    exec .enc7 s = .next s ∧
    exec .enc8 s = .next s ∧
    exec .enc9 s = .next s ∧
    exec .enc10 s = .next s ∧
    exec .enc11 s = .next s ∧
    exec .enc12 s = .next s ∧
    exec .enc13 s = .next s ∧
    exec .enc14 s = .next s ∧
    exec .enc15 s = .next s ∧
    exec .enc16 s = .next s ∧
    exec (.enc17 p) s = .next s

/-- The row images of the opcode table carry the rows 0 to 16 of the default table, so that the ROM can be built from the
images alone (30_encoding.md R69, 40_encoder.md R82; the default rows are PRESUMED, log 5). -/
def Obligations.RowImagesCarryTheDefaultTable : Prop :=
  ∀ (i : Instr) (row : BitVec 5) (data : Pattern), encode i = .rom (row ++ data) → row ≠ 17#5 →
    i.romRow = some row.toNat ∧ State.reset.enc[row.toNat]? = some data

/-- In a table that meets the spec's constraint, ENCODE of 0, 7 and 16 are the source's patterns, and the whole machine
draws them: a Print of such a digit puts exactly that pattern on the segment pins (40_encoder.md R82, 43_tick.md
R121). -/
def Obligations.SourcePatternsReachThePins : Prop :=
  ∀ s : State, Sound s → s.initialised = true → s.st = .nextDigit →
    ∃ t, exec tickOf s = .next t ∧
      (s.dv[s.ad.toNat]? = some 0#5 → t.seg = #v[.high, .high, .high, .high, .high, .high, .low, .low]) ∧
      (s.dv[s.ad.toNat]? = some 7#5 → t.seg = #v[.high, .high, .high, .low, .low, .low, .low, .low]) ∧
      (s.dv[s.ad.toNat]? = some 16#5 → t.seg = #v[.low, .low, .low, .low, .low, .low, .low, .low])

/-- 40_encoder.md R85: ENCODE has no value outside the table; a state whose active register held such a value would have
its Print refused, and no sound state asks for it. -/
def Obligations.EncodeOutsideTheTableHasNoValue : Prop :=
  (∀ (enc : Vector Pattern 18) (v : Nat), encodeValue enc v = none ↔ 18 ≤ v) ∧
  (∀ (s : State) (v : DigitValue), s.initialised = true → s.st = .nextDigit → s.dv[s.ad.toNat]? = some v →
    18 ≤ v.toNat → exec tickOf s = .refused .encodeOutsideTable) ∧
  (∀ (i : Instr) (s : State), Sound s → exec i s ≠ .refused .encodeOutsideTable)

/-- The default table tells the 17 DigitValues apart (40_encoder.md R84 item 3; the default rows are PRESUMED, log 5). -/
def Obligations.DefaultPatternsAreDistinct : Prop :=
  ∀ i j : Nat, ∀ hi : i < 17, ∀ hj : j < 17, i ≠ j → State.reset.enc[i] ≠ State.reset.enc[j]

end Encoder
end

