-- ==== Sys2Proof/Laws/Decode.lean ====
section
/-! SUPPORT. The fields of a word that the encoder has put together. -/

namespace Sys2Proof

@[simp] theorem opField_append (op : BitVec 2) (a b : Operand) : opField (op ++ a ++ b) = op := by
  ext i hi
  simp only [opField, BitVec.getElem_extractLsb', BitVec.getLsbD_append]
  rw [if_neg (by omega), if_neg (by omega), show 16 + i - 8 - 8 = i by omega, BitVec.getLsbD_eq_getElem hi]

@[simp] theorem aField_append (op : BitVec 2) (a b : Operand) : aField (op ++ a ++ b) = a := by
  ext i hi
  simp only [aField, BitVec.getElem_extractLsb', BitVec.getLsbD_append]
  rw [if_neg (by omega), if_pos (by omega), show 8 + i - 8 = i by omega, BitVec.getLsbD_eq_getElem hi]

@[simp] theorem bField_append (op : BitVec 2) (a b : Operand) : bField (op ++ a ++ b) = b := by
  ext i hi
  simp only [bField, BitVec.getElem_extractLsb', BitVec.getLsbD_append]
  rw [if_pos (by omega), show 0 + i = i by omega, BitVec.getLsbD_eq_getElem hi]

@[simp] theorem romIndexField_append (row : BitVec 5) (p : Pattern) : romIndexField (row ++ p) = row := by
  ext i hi
  simp only [romIndexField, BitVec.getElem_extractLsb', BitVec.getLsbD_append]
  rw [if_neg (by omega), show 8 + i - 8 = i by omega, BitVec.getLsbD_eq_getElem hi]

@[simp] theorem romDataField_append (row : BitVec 5) (p : Pattern) : romDataField (row ++ p) = p := by
  ext i hi
  simp only [romDataField, BitVec.getElem_extractLsb', BitVec.getLsbD_append]
  rw [if_pos (by omega), show 0 + i = i by omega, BitVec.getLsbD_eq_getElem hi]

theorem romRowIf_ok {data contents : Pattern} {i j : Instr} (h : romRowIf data contents i = .ok j) :
    data = contents ∧ j = i := by
  unfold romRowIf at h
  split at h
  · exact ⟨‹_›, by cases h; rfl⟩
  · cases h

/-- What a strobed cycle can stand for: INIT alone, or TICK and SET_DIGIT in that order, each if it is presented. -/
theorem strobedOperations_cases (initReq setReq tickReq : Bool) (a b : Operand) :
    (initReq = true ∧ strobedOperations initReq setReq tickReq a b = [.init a b]) ∨
    (initReq = false ∧ strobedOperations initReq setReq tickReq a b =
      (if tickReq then [tickOf] else []) ++ (if setReq then [.setDigit a b] else [])) := by
  cases initReq
  · exact .inr ⟨rfl, rfl⟩
  · exact .inl ⟨rfl, rfl⟩

end Sys2Proof
end

