-- ==== Sys2Proof/Laws/State.lean ====
section
/-! SUPPORT. One lemma per field per named update of the state, so that no later proof unfolds a record update. -/

namespace Sys2Proof.Machine

@[simp] theorem setPending_n (s : State) : (setPending s).n = s.n := rfl
@[simp] theorem setPending_dv (s : State) : (setPending s).dv = s.dv := rfl
@[simp] theorem setPending_ad (s : State) : (setPending s).ad = s.ad := rfl
@[simp] theorem setPending_sc (s : State) : (setPending s).sc = s.sc := rfl
@[simp] theorem setPending_pr (s : State) : (setPending s).pr = true := rfl
@[simp] theorem setPending_st (s : State) : (setPending s).st = s.st := rfl
@[simp] theorem setPending_seg (s : State) : (setPending s).seg = s.seg := rfl
@[simp] theorem setPending_com (s : State) : (setPending s).com = s.com := rfl
@[simp] theorem setPending_strobeTicks (s : State) : (setPending s).strobeTicks = s.strobeTicks := rfl
@[simp] theorem setPending_enc (s : State) : (setPending s).enc = s.enc := rfl
@[simp] theorem setPending_scWidth (s : State) : (setPending s).scWidth = s.scWidth := rfl
@[simp] theorem setPending_initialised (s : State) : (setPending s).initialised = s.initialised := rfl
@[simp] theorem setPending_inputs (s : State) : (setPending s).inputs = s.inputs := rfl

@[simp] theorem clearPending_n (s : State) : (clearPending s).n = s.n := rfl
@[simp] theorem clearPending_dv (s : State) : (clearPending s).dv = s.dv := rfl
@[simp] theorem clearPending_ad (s : State) : (clearPending s).ad = s.ad := rfl
@[simp] theorem clearPending_sc (s : State) : (clearPending s).sc = s.sc := rfl
@[simp] theorem clearPending_pr (s : State) : (clearPending s).pr = false := rfl
@[simp] theorem clearPending_st (s : State) : (clearPending s).st = s.st := rfl
@[simp] theorem clearPending_seg (s : State) : (clearPending s).seg = s.seg := rfl
@[simp] theorem clearPending_com (s : State) : (clearPending s).com = s.com := rfl
@[simp] theorem clearPending_strobeTicks (s : State) : (clearPending s).strobeTicks = s.strobeTicks := rfl
@[simp] theorem clearPending_enc (s : State) : (clearPending s).enc = s.enc := rfl
@[simp] theorem clearPending_scWidth (s : State) : (clearPending s).scWidth = s.scWidth := rfl
@[simp] theorem clearPending_initialised (s : State) : (clearPending s).initialised = s.initialised := rfl
@[simp] theorem clearPending_inputs (s : State) : (clearPending s).inputs = s.inputs := rfl

@[simp] theorem enterState_n (x : FsmState) (s : State) : (enterState x s).n = s.n := rfl
@[simp] theorem enterState_dv (x : FsmState) (s : State) : (enterState x s).dv = s.dv := rfl
@[simp] theorem enterState_ad (x : FsmState) (s : State) : (enterState x s).ad = s.ad := rfl
@[simp] theorem enterState_sc (x : FsmState) (s : State) : (enterState x s).sc = s.sc := rfl
@[simp] theorem enterState_pr (x : FsmState) (s : State) : (enterState x s).pr = s.pr := rfl
@[simp] theorem enterState_st (x : FsmState) (s : State) : (enterState x s).st = x := rfl
@[simp] theorem enterState_seg (x : FsmState) (s : State) : (enterState x s).seg = s.seg := rfl
@[simp] theorem enterState_com (x : FsmState) (s : State) : (enterState x s).com = s.com := rfl
@[simp] theorem enterState_strobeTicks (x : FsmState) (s : State) : (enterState x s).strobeTicks = s.strobeTicks := rfl
@[simp] theorem enterState_enc (x : FsmState) (s : State) : (enterState x s).enc = s.enc := rfl
@[simp] theorem enterState_scWidth (x : FsmState) (s : State) : (enterState x s).scWidth = s.scWidth := rfl
@[simp] theorem enterState_initialised (x : FsmState) (s : State) : (enterState x s).initialised = s.initialised := rfl
@[simp] theorem enterState_inputs (x : FsmState) (s : State) : (enterState x s).inputs = s.inputs := rfl

@[simp] theorem setCounter_n (c : Nat) (s : State) : (setCounter c s).n = s.n := rfl
@[simp] theorem setCounter_dv (c : Nat) (s : State) : (setCounter c s).dv = s.dv := rfl
@[simp] theorem setCounter_ad (c : Nat) (s : State) : (setCounter c s).ad = s.ad := rfl
@[simp] theorem setCounter_sc (c : Nat) (s : State) : (setCounter c s).sc = c := rfl
@[simp] theorem setCounter_pr (c : Nat) (s : State) : (setCounter c s).pr = s.pr := rfl
@[simp] theorem setCounter_st (c : Nat) (s : State) : (setCounter c s).st = s.st := rfl
@[simp] theorem setCounter_seg (c : Nat) (s : State) : (setCounter c s).seg = s.seg := rfl
@[simp] theorem setCounter_com (c : Nat) (s : State) : (setCounter c s).com = s.com := rfl
@[simp] theorem setCounter_strobeTicks (c : Nat) (s : State) : (setCounter c s).strobeTicks = s.strobeTicks := rfl
@[simp] theorem setCounter_enc (c : Nat) (s : State) : (setCounter c s).enc = s.enc := rfl
@[simp] theorem setCounter_scWidth (c : Nat) (s : State) : (setCounter c s).scWidth = s.scWidth := rfl
@[simp] theorem setCounter_initialised (c : Nat) (s : State) : (setCounter c s).initialised = s.initialised := rfl
@[simp] theorem setCounter_inputs (c : Nat) (s : State) : (setCounter c s).inputs = s.inputs := rfl

@[simp] theorem setActive_n (d : BitVec 3) (s : State) : (setActive d s).n = s.n := rfl
@[simp] theorem setActive_dv (d : BitVec 3) (s : State) : (setActive d s).dv = s.dv := rfl
@[simp] theorem setActive_ad (d : BitVec 3) (s : State) : (setActive d s).ad = d := rfl
@[simp] theorem setActive_sc (d : BitVec 3) (s : State) : (setActive d s).sc = s.sc := rfl
@[simp] theorem setActive_pr (d : BitVec 3) (s : State) : (setActive d s).pr = s.pr := rfl
@[simp] theorem setActive_st (d : BitVec 3) (s : State) : (setActive d s).st = s.st := rfl
@[simp] theorem setActive_seg (d : BitVec 3) (s : State) : (setActive d s).seg = s.seg := rfl
@[simp] theorem setActive_com (d : BitVec 3) (s : State) : (setActive d s).com = s.com := rfl
@[simp] theorem setActive_strobeTicks (d : BitVec 3) (s : State) : (setActive d s).strobeTicks = s.strobeTicks := rfl
@[simp] theorem setActive_enc (d : BitVec 3) (s : State) : (setActive d s).enc = s.enc := rfl
@[simp] theorem setActive_scWidth (d : BitVec 3) (s : State) : (setActive d s).scWidth = s.scWidth := rfl
@[simp] theorem setActive_initialised (d : BitVec 3) (s : State) : (setActive d s).initialised = s.initialised := rfl
@[simp] theorem setActive_inputs (d : BitVec 3) (s : State) : (setActive d s).inputs = s.inputs := rfl

@[simp] theorem putDigit_n (i : Nat) (v : DigitValue) (s : State) : (putDigit i v s).n = s.n := rfl
@[simp] theorem putDigit_dv (i : Nat) (v : DigitValue) (s : State) : (putDigit i v s).dv = s.dv.set i v := rfl
@[simp] theorem putDigit_ad (i : Nat) (v : DigitValue) (s : State) : (putDigit i v s).ad = s.ad := rfl
@[simp] theorem putDigit_sc (i : Nat) (v : DigitValue) (s : State) : (putDigit i v s).sc = s.sc := rfl
@[simp] theorem putDigit_pr (i : Nat) (v : DigitValue) (s : State) : (putDigit i v s).pr = s.pr := rfl
@[simp] theorem putDigit_st (i : Nat) (v : DigitValue) (s : State) : (putDigit i v s).st = s.st := rfl
@[simp] theorem putDigit_seg (i : Nat) (v : DigitValue) (s : State) : (putDigit i v s).seg = s.seg := rfl
@[simp] theorem putDigit_com (i : Nat) (v : DigitValue) (s : State) : (putDigit i v s).com = s.com := rfl
@[simp] theorem putDigit_strobeTicks (i : Nat) (v : DigitValue) (s : State) : (putDigit i v s).strobeTicks = s.strobeTicks := rfl
@[simp] theorem putDigit_enc (i : Nat) (v : DigitValue) (s : State) : (putDigit i v s).enc = s.enc := rfl
@[simp] theorem putDigit_scWidth (i : Nat) (v : DigitValue) (s : State) : (putDigit i v s).scWidth = s.scWidth := rfl
@[simp] theorem putDigit_initialised (i : Nat) (v : DigitValue) (s : State) : (putDigit i v s).initialised = s.initialised := rfl
@[simp] theorem putDigit_inputs (i : Nat) (v : DigitValue) (s : State) : (putDigit i v s).inputs = s.inputs := rfl

@[simp] theorem drivePins_n (x : Vector PinLevel 8) (c : List PinLevel) (s : State) : (drivePins x c s).n = s.n := rfl
@[simp] theorem drivePins_dv (x : Vector PinLevel 8) (c : List PinLevel) (s : State) : (drivePins x c s).dv = s.dv := rfl
@[simp] theorem drivePins_ad (x : Vector PinLevel 8) (c : List PinLevel) (s : State) : (drivePins x c s).ad = s.ad := rfl
@[simp] theorem drivePins_sc (x : Vector PinLevel 8) (c : List PinLevel) (s : State) : (drivePins x c s).sc = s.sc := rfl
@[simp] theorem drivePins_pr (x : Vector PinLevel 8) (c : List PinLevel) (s : State) : (drivePins x c s).pr = s.pr := rfl
@[simp] theorem drivePins_st (x : Vector PinLevel 8) (c : List PinLevel) (s : State) : (drivePins x c s).st = s.st := rfl
@[simp] theorem drivePins_seg (x : Vector PinLevel 8) (c : List PinLevel) (s : State) : (drivePins x c s).seg = x := rfl
@[simp] theorem drivePins_com (x : Vector PinLevel 8) (c : List PinLevel) (s : State) : (drivePins x c s).com = c := rfl
@[simp] theorem drivePins_strobeTicks (x : Vector PinLevel 8) (c : List PinLevel) (s : State) : (drivePins x c s).strobeTicks = s.strobeTicks := rfl
@[simp] theorem drivePins_enc (x : Vector PinLevel 8) (c : List PinLevel) (s : State) : (drivePins x c s).enc = s.enc := rfl
@[simp] theorem drivePins_scWidth (x : Vector PinLevel 8) (c : List PinLevel) (s : State) : (drivePins x c s).scWidth = s.scWidth := rfl
@[simp] theorem drivePins_initialised (x : Vector PinLevel 8) (c : List PinLevel) (s : State) : (drivePins x c s).initialised = s.initialised := rfl
@[simp] theorem drivePins_inputs (x : Vector PinLevel 8) (c : List PinLevel) (s : State) : (drivePins x c s).inputs = s.inputs := rfl

@[simp] theorem setInputs_n (is : List Input) (s : State) : (setInputs is s).n = s.n := rfl
@[simp] theorem setInputs_dv (is : List Input) (s : State) : (setInputs is s).dv = s.dv := rfl
@[simp] theorem setInputs_ad (is : List Input) (s : State) : (setInputs is s).ad = s.ad := rfl
@[simp] theorem setInputs_sc (is : List Input) (s : State) : (setInputs is s).sc = s.sc := rfl
@[simp] theorem setInputs_pr (is : List Input) (s : State) : (setInputs is s).pr = s.pr := rfl
@[simp] theorem setInputs_st (is : List Input) (s : State) : (setInputs is s).st = s.st := rfl
@[simp] theorem setInputs_seg (is : List Input) (s : State) : (setInputs is s).seg = s.seg := rfl
@[simp] theorem setInputs_com (is : List Input) (s : State) : (setInputs is s).com = s.com := rfl
@[simp] theorem setInputs_strobeTicks (is : List Input) (s : State) : (setInputs is s).strobeTicks = s.strobeTicks := rfl
@[simp] theorem setInputs_enc (is : List Input) (s : State) : (setInputs is s).enc = s.enc := rfl
@[simp] theorem setInputs_scWidth (is : List Input) (s : State) : (setInputs is s).scWidth = s.scWidth := rfl
@[simp] theorem setInputs_initialised (is : List Input) (s : State) : (setInputs is s).initialised = s.initialised := rfl
@[simp] theorem setInputs_inputs (is : List Input) (s : State) : (setInputs is s).inputs = is := rfl

@[simp] theorem drawPattern_n (p : Pattern) (s : State) : (drawPattern p s).n = s.n := rfl
@[simp] theorem drawPattern_dv (p : Pattern) (s : State) : (drawPattern p s).dv = s.dv := rfl
@[simp] theorem drawPattern_ad (p : Pattern) (s : State) : (drawPattern p s).ad = s.ad := rfl
@[simp] theorem drawPattern_sc (p : Pattern) (s : State) : (drawPattern p s).sc = s.sc := rfl
@[simp] theorem drawPattern_pr (p : Pattern) (s : State) : (drawPattern p s).pr = false := rfl
@[simp] theorem drawPattern_st (p : Pattern) (s : State) : (drawPattern p s).st = s.st := rfl
@[simp] theorem drawPattern_seg (p : Pattern) (s : State) : (drawPattern p s).seg = segmentLevels p := rfl
@[simp] theorem drawPattern_com (p : Pattern) (s : State) : (drawPattern p s).com = commonLevels s.n s.ad.toNat := rfl
@[simp] theorem drawPattern_strobeTicks (p : Pattern) (s : State) : (drawPattern p s).strobeTicks = s.strobeTicks := rfl
@[simp] theorem drawPattern_enc (p : Pattern) (s : State) : (drawPattern p s).enc = s.enc := rfl
@[simp] theorem drawPattern_scWidth (p : Pattern) (s : State) : (drawPattern p s).scWidth = s.scWidth := rfl
@[simp] theorem drawPattern_initialised (p : Pattern) (s : State) : (drawPattern p s).initialised = s.initialised := rfl
@[simp] theorem drawPattern_inputs (p : Pattern) (s : State) : (drawPattern p s).inputs = s.inputs := rfl

@[simp] theorem startDisplay_n (k : Nat) (s : State) : (startDisplay k s).n = k := rfl
@[simp] theorem startDisplay_dv (k : Nat) (s : State) : (startDisplay k s).dv = List.replicate k (BitVec.ofNat 5 Config.blank) := rfl
@[simp] theorem startDisplay_ad (k : Nat) (s : State) : (startDisplay k s).ad = 0#3 := rfl
@[simp] theorem startDisplay_sc (k : Nat) (s : State) : (startDisplay k s).sc = 0 := rfl
@[simp] theorem startDisplay_pr (k : Nat) (s : State) : (startDisplay k s).pr = true := rfl
@[simp] theorem startDisplay_st (k : Nat) (s : State) : (startDisplay k s).st = .init := rfl
@[simp] theorem startDisplay_seg (k : Nat) (s : State) : (startDisplay k s).seg = undefSegments := rfl
@[simp] theorem startDisplay_com (k : Nat) (s : State) : (startDisplay k s).com = List.replicate k .undef := rfl
@[simp] theorem startDisplay_strobeTicks (k : Nat) (s : State) : (startDisplay k s).strobeTicks = s.strobeTicks := rfl
@[simp] theorem startDisplay_enc (k : Nat) (s : State) : (startDisplay k s).enc = s.enc := rfl
@[simp] theorem startDisplay_scWidth (k : Nat) (s : State) : (startDisplay k s).scWidth = s.scWidth := rfl
@[simp] theorem startDisplay_initialised (k : Nat) (s : State) : (startDisplay k s).initialised = true := rfl
@[simp] theorem startDisplay_inputs (k : Nat) (s : State) : (startDisplay k s).inputs = s.inputs := rfl

@[simp] theorem withStrobeTicks_n (c : Nat) (s : State) : (State.withStrobeTicks c s).n = s.n := rfl
@[simp] theorem withStrobeTicks_dv (c : Nat) (s : State) : (State.withStrobeTicks c s).dv = s.dv := rfl
@[simp] theorem withStrobeTicks_ad (c : Nat) (s : State) : (State.withStrobeTicks c s).ad = s.ad := rfl
@[simp] theorem withStrobeTicks_sc (c : Nat) (s : State) : (State.withStrobeTicks c s).sc = s.sc := rfl
@[simp] theorem withStrobeTicks_pr (c : Nat) (s : State) : (State.withStrobeTicks c s).pr = s.pr := rfl
@[simp] theorem withStrobeTicks_st (c : Nat) (s : State) : (State.withStrobeTicks c s).st = s.st := rfl
@[simp] theorem withStrobeTicks_seg (c : Nat) (s : State) : (State.withStrobeTicks c s).seg = s.seg := rfl
@[simp] theorem withStrobeTicks_com (c : Nat) (s : State) : (State.withStrobeTicks c s).com = s.com := rfl
@[simp] theorem withStrobeTicks_strobeTicks (c : Nat) (s : State) : (State.withStrobeTicks c s).strobeTicks = c := rfl
@[simp] theorem withStrobeTicks_enc (c : Nat) (s : State) : (State.withStrobeTicks c s).enc = s.enc := rfl
@[simp] theorem withStrobeTicks_scWidth (c : Nat) (s : State) : (State.withStrobeTicks c s).scWidth = s.scWidth := rfl
@[simp] theorem withStrobeTicks_initialised (c : Nat) (s : State) : (State.withStrobeTicks c s).initialised = s.initialised := rfl
@[simp] theorem withStrobeTicks_inputs (c : Nat) (s : State) : (State.withStrobeTicks c s).inputs = s.inputs := rfl

@[simp] theorem withErrorRow_n (p : Pattern) (s : State) : (State.withErrorRow p s).n = s.n := rfl
@[simp] theorem withErrorRow_dv (p : Pattern) (s : State) : (State.withErrorRow p s).dv = s.dv := rfl
@[simp] theorem withErrorRow_ad (p : Pattern) (s : State) : (State.withErrorRow p s).ad = s.ad := rfl
@[simp] theorem withErrorRow_sc (p : Pattern) (s : State) : (State.withErrorRow p s).sc = s.sc := rfl
@[simp] theorem withErrorRow_pr (p : Pattern) (s : State) : (State.withErrorRow p s).pr = s.pr := rfl
@[simp] theorem withErrorRow_st (p : Pattern) (s : State) : (State.withErrorRow p s).st = s.st := rfl
@[simp] theorem withErrorRow_seg (p : Pattern) (s : State) : (State.withErrorRow p s).seg = s.seg := rfl
@[simp] theorem withErrorRow_com (p : Pattern) (s : State) : (State.withErrorRow p s).com = s.com := rfl
@[simp] theorem withErrorRow_strobeTicks (p : Pattern) (s : State) : (State.withErrorRow p s).strobeTicks = s.strobeTicks := rfl
@[simp] theorem withErrorRow_enc (p : Pattern) (s : State) : (State.withErrorRow p s).enc = s.enc.set 17 p := rfl
@[simp] theorem withErrorRow_scWidth (p : Pattern) (s : State) : (State.withErrorRow p s).scWidth = s.scWidth := rfl
@[simp] theorem withErrorRow_initialised (p : Pattern) (s : State) : (State.withErrorRow p s).initialised = s.initialised := rfl
@[simp] theorem withErrorRow_inputs (p : Pattern) (s : State) : (State.withErrorRow p s).inputs = s.inputs := rfl

@[simp] theorem presentWord_n (w : BitVec 18) (s : State) : (presentWord w s).n = s.n := rfl
@[simp] theorem presentWord_dv (w : BitVec 18) (s : State) : (presentWord w s).dv = s.dv := rfl
@[simp] theorem presentWord_ad (w : BitVec 18) (s : State) : (presentWord w s).ad = s.ad := rfl
@[simp] theorem presentWord_sc (w : BitVec 18) (s : State) : (presentWord w s).sc = s.sc := rfl
@[simp] theorem presentWord_pr (w : BitVec 18) (s : State) : (presentWord w s).pr = s.pr := rfl
@[simp] theorem presentWord_st (w : BitVec 18) (s : State) : (presentWord w s).st = s.st := rfl
@[simp] theorem presentWord_seg (w : BitVec 18) (s : State) : (presentWord w s).seg = s.seg := rfl
@[simp] theorem presentWord_com (w : BitVec 18) (s : State) : (presentWord w s).com = s.com := rfl
@[simp] theorem presentWord_strobeTicks (w : BitVec 18) (s : State) : (presentWord w s).strobeTicks = s.strobeTicks := rfl
@[simp] theorem presentWord_enc (w : BitVec 18) (s : State) : (presentWord w s).enc = s.enc := rfl
@[simp] theorem presentWord_scWidth (w : BitVec 18) (s : State) : (presentWord w s).scWidth = s.scWidth := rfl
@[simp] theorem presentWord_initialised (w : BitVec 18) (s : State) : (presentWord w s).initialised = s.initialised := rfl
@[simp] theorem presentWord_inputs (w : BitVec 18) (s : State) : (presentWord w s).inputs = .word w :: s.inputs := rfl

@[simp] theorem placeRow_n (row : BitVec 5) (p : Pattern) (s : State) : (placeRow row p s).n = s.n := rfl
@[simp] theorem placeRow_dv (row : BitVec 5) (p : Pattern) (s : State) : (placeRow row p s).dv = s.dv := rfl
@[simp] theorem placeRow_ad (row : BitVec 5) (p : Pattern) (s : State) : (placeRow row p s).ad = s.ad := rfl
@[simp] theorem placeRow_sc (row : BitVec 5) (p : Pattern) (s : State) : (placeRow row p s).sc = s.sc := rfl
@[simp] theorem placeRow_pr (row : BitVec 5) (p : Pattern) (s : State) : (placeRow row p s).pr = s.pr := rfl
@[simp] theorem placeRow_st (row : BitVec 5) (p : Pattern) (s : State) : (placeRow row p s).st = s.st := rfl
@[simp] theorem placeRow_seg (row : BitVec 5) (p : Pattern) (s : State) : (placeRow row p s).seg = s.seg := rfl
@[simp] theorem placeRow_com (row : BitVec 5) (p : Pattern) (s : State) : (placeRow row p s).com = s.com := rfl
@[simp] theorem placeRow_strobeTicks (row : BitVec 5) (p : Pattern) (s : State) : (placeRow row p s).strobeTicks = s.strobeTicks := rfl
@[simp] theorem placeRow_enc (row : BitVec 5) (p : Pattern) (s : State) : (placeRow row p s).enc = s.enc.setIfInBounds row.toNat p := rfl
@[simp] theorem placeRow_scWidth (row : BitVec 5) (p : Pattern) (s : State) : (placeRow row p s).scWidth = s.scWidth := rfl
@[simp] theorem placeRow_initialised (row : BitVec 5) (p : Pattern) (s : State) : (placeRow row p s).initialised = s.initialised := rfl
@[simp] theorem placeRow_inputs (row : BitVec 5) (p : Pattern) (s : State) : (placeRow row p s).inputs = s.inputs := rfl

@[simp] theorem aimPrint_n (v : DigitValue) (s : State) : (aimPrint v s).n = s.n := rfl
@[simp] theorem aimPrint_dv (v : DigitValue) (s : State) : (aimPrint v s).dv = s.dv.set s.ad.toNat v := rfl
@[simp] theorem aimPrint_ad (v : DigitValue) (s : State) : (aimPrint v s).ad = s.ad := rfl
@[simp] theorem aimPrint_sc (v : DigitValue) (s : State) : (aimPrint v s).sc = s.sc := rfl
@[simp] theorem aimPrint_pr (v : DigitValue) (s : State) : (aimPrint v s).pr = s.pr := rfl
@[simp] theorem aimPrint_st (v : DigitValue) (s : State) : (aimPrint v s).st = .nextDigit := rfl
@[simp] theorem aimPrint_seg (v : DigitValue) (s : State) : (aimPrint v s).seg = s.seg := rfl
@[simp] theorem aimPrint_com (v : DigitValue) (s : State) : (aimPrint v s).com = s.com := rfl
@[simp] theorem aimPrint_strobeTicks (v : DigitValue) (s : State) : (aimPrint v s).strobeTicks = s.strobeTicks := rfl
@[simp] theorem aimPrint_enc (v : DigitValue) (s : State) : (aimPrint v s).enc = s.enc := rfl
@[simp] theorem aimPrint_scWidth (v : DigitValue) (s : State) : (aimPrint v s).scWidth = s.scWidth := rfl
@[simp] theorem aimPrint_initialised (v : DigitValue) (s : State) : (aimPrint v s).initialised = s.initialised := rfl
@[simp] theorem aimPrint_inputs (v : DigitValue) (s : State) : (aimPrint v s).inputs = s.inputs := rfl

end Sys2Proof.Machine
end

