-- ==== Sys2Proof/Laws/Ops.lean ====
section
/-! SUPPORT. For each shared operation, one lemma that says once everything it can do; the inversion of each meaning and
of exec; the small lemmas of the pin levels and of sequences of operations. -/

namespace Sys2Proof.Machine

section Operands

theorem classifySetDigit_accepted {n index value : Nat} :
    classifySetDigit n index value = .accepted ↔ index < n ∧ value ≤ Config.maxDigitValue := by
  unfold classifySetDigit
  split <;> rename_i h
  · simp; omega
  · split <;> rename_i h' <;> simp <;> omega

@[simp] theorem encodeValue_eq (enc : Vector Pattern 18) (v : Nat) : encodeValue enc v = enc[v]? := rfl

theorem encodeValue_some_iff {enc : Vector Pattern 18} {v : Nat} {p : Pattern} :
    encodeValue enc v = some p ↔ ∃ h : v < 18, enc[v] = p := by
  simp [Vector.getElem?_eq_some_iff]

theorem encodeValue_none_iff {enc : Vector Pattern 18} {v : Nat} : encodeValue enc v = none ↔ 18 ≤ v := by
  simp

theorem levelOf_ne_undef (b : Bool) : levelOf b ≠ .undef := by cases b <;> simp [levelOf]

theorem segmentLevels_get (p : Pattern) (k : Nat) (h : k < 8) : (segmentLevels p)[k] = levelOf (p.getLsbD k) := by
  rcases k with _ | _ | _ | _ | _ | _ | _ | _ | k <;> first | rfl | omega

@[simp] theorem commonLevels_length (n j : Nat) : (commonLevels n j).length = n := by simp [commonLevels]

theorem commonLevels_get {n j k : Nat} (h : k < n) : (commonLevels n j)[k]? = some (levelOf (k != j)) := by
  simp [commonLevels, h]

theorem followingDigit_toNat {n : Nat} (ad : BitVec 3) (hn : 1 ≤ n) (hn' : n ≤ 8) :
    (followingDigit n ad).toNat = (ad.toNat + 1) % n := by
  have : (ad.toNat + 1) % n < n := Nat.mod_lt _ hn
  simp only [followingDigit, BitVec.toNat_ofNat]
  exact Nat.mod_eq_of_lt (by omega)

theorem counterHolds_iff {scWidth : Option Nat} {c : Nat} :
    counterHolds scWidth c = true ↔ ∀ w, scWidth = some w → c < 2 ^ w := by
  cases scWidth <;> simp [counterHolds]

@[simp] theorem strobeExpired_iff {sc strobeTicks : Nat} : strobeExpired sc strobeTicks = true ↔ strobeTicks ≤ sc := by
  simp [strobeExpired]

end Operands

section Operations

variable {s t : State}

theorem afterFirstInit_next {r : Result} (h : afterFirstInit s r = .next t) : s.initialised = true ∧ r = .next t := by
  unfold afterFirstInit at h
  split at h
  · exact ⟨‹_›, h⟩
  · cases h

theorem afterFirstInit_of_initialised {r : Result} (h : s.initialised = true) : afterFirstInit s r = r := by
  simp [afterFirstInit, h]

theorem countIdle_next (h : countIdle s = .next t) : s.canCountTo (s.sc + 1) ∧ t = setCounter (s.sc + 1) s := by
  unfold countIdle at h
  split at h
  · rename_i hc
    exact ⟨counterHolds_iff.1 hc, by cases h; rfl⟩
  · cases h

theorem countIdle_eq (h : s.canCountTo (s.sc + 1)) : countIdle s = .next (setCounter (s.sc + 1) s) := by
  simp [countIdle, counterHolds_iff.2 h]

/-- ENCODE either has a pattern, which its client goes on with, or is refused. -/
theorem withEncode_cases (v : Nat) (client : Pattern → State → Result) (s : State) :
    (∃ p, encodeValue s.enc v = some p ∧ withEncode v client s = client p s) ∨
    (18 ≤ v ∧ withEncode v client s = .refused .encodeOutsideTable) := by
  unfold withEncode
  split <;> rename_i h
  · exact .inr ⟨encodeValue_none_iff.1 h, rfl⟩
  · exact .inl ⟨_, h, rfl⟩

theorem withEncode_eq {v : Nat} {client : Pattern → State → Result} {p : Pattern}
    (h : encodeValue s.enc v = some p) : withEncode v client s = client p s := by
  simp only [withEncode, h]

/-- A lookup by itself changes nothing. -/
theorem lookUp_eq {row : Nat} (h : row < 18) : lookUp row s = .next s :=
  withEncode_eq (encodeValue_some_iff.2 ⟨h, rfl⟩)

theorem printDigit_next (h : printDigit s = .next t) :
    ∃ v p, s.dv[s.ad.toNat]? = some v ∧ encodeValue s.enc v.toNat = some p ∧ t = drawPattern p s := by
  unfold printDigit at h
  split at h
  · cases h
  · rename_i v hv
    obtain ⟨p, hp, he⟩ | ⟨-, he⟩ := withEncode_cases v.toNat (fun p t => .next (drawPattern p t)) s
    · rw [he] at h
      exact ⟨v, p, hv, hp, by cases h; rfl⟩
    · rw [he] at h
      cases h

theorem printDigit_eq {v : DigitValue} {p : Pattern} (hv : s.dv[s.ad.toNat]? = some v)
    (hp : encodeValue s.enc v.toNat = some p) : printDigit s = .next (drawPattern p s) := by
  simp only [printDigit, hv, withEncode_eq hp]

theorem storeDigit_next {index value : Nat} (h : storeDigit index value s = .next t) :
    index < s.dv.length ∧ t = setPending (putDigit index (BitVec.ofNat 5 value) s) := by
  unfold storeDigit at h
  split at h
  · exact ⟨‹_›, by cases h; rfl⟩
  · cases h

theorem takeInput_cases (s : State) :
    (s.inputs = [] ∧ takeInput s = none) ∨
    ∃ i rest, s.inputs = i :: rest ∧ takeInput s = some (i, setInputs rest s) := by
  cases h : s.inputs with
  | nil => exact .inl ⟨rfl, by simp [takeInput, h]⟩
  | cons i rest => exact .inr ⟨i, rest, rfl, by simp [takeInput, h]⟩

end Operations

section Sequences

variable {run : Instr → State → Result} {s t : State}

@[simp] theorem runAll_nil : runAll run [] s = .next s := rfl

theorem runAll_cons_next {i : Instr} {is : List Instr} (h : run i s = .next t) :
    runAll run (i :: is) s = runAll run is t := by
  simp [runAll, h]

@[simp] theorem runAll_singleton {i : Instr} : runAll run [i] s = run i s := by
  simp only [runAll]
  split <;> rename_i h <;> exact h.symm

theorem runAll_append_next {is js : List Instr} (h : runAll run is s = .next t) :
    runAll run (is ++ js) s = runAll run js t := by
  induction is generalizing s with
  | nil => cases h; rfl
  | cons i is ih =>
    simp only [List.cons_append, runAll] at h ⊢
    split at h
    · exact ih h
    · cases h
    · cases h

end Sequences

section Meanings

variable {s t : State}

theorem execInit_next (a b : Operand) (h : execInit a b s = .next t) :
    operand a ≤ Config.maxDigits ∧ t = startDisplay (effectiveCount (operand a)) s := by
  unfold execInit at h
  split at h
  · cases h
  · exact ⟨by omega, by cases h; rfl⟩

theorem execSetDigit_next {index value : Operand} (h : execSetDigit index value s = .next t) :
    s.initialised = true ∧
    ((s.accepts index value ∧ operand index < s.dv.length ∧
        t = setPending (putDigit (operand index) (BitVec.ofNat 5 (operand value)) s)) ∨
      (¬ s.accepts index value ∧ t = s)) := by
  obtain ⟨hi, h⟩ := afterFirstInit_next h
  refine ⟨hi, ?_⟩
  split at h
  · rename_i hc
    obtain ⟨hl, ht⟩ := storeDigit_next h
    exact .inl ⟨classifySetDigit_accepted.1 hc, hl, ht⟩
  all_goals
    rename_i hc
    refine .inr ⟨fun ha => ?_, by cases h; rfl⟩
    rw [classifySetDigit_accepted.2 ha] at hc
    cases hc

/-- Everything a TICK that answers a next state can have done: the Idle, the Print or the NextDigit action, after its
transition. -/
theorem execTick_next (a b : Operand) (h : execTick a b s = .next t) :
    s.initialised = true ∧
    (((s.st = .init ∨ s.st = .print ∨ s.st = .idle ∧ s.pr = false ∧ s.sc < s.strobeTicks) ∧
        s.canCountTo (s.sc + 1) ∧ t = setCounter (s.sc + 1) (enterState .idle s)) ∨
      ((s.st = .nextDigit ∨ s.st = .idle ∧ s.pr = true) ∧
        ∃ v p, s.dv[s.ad.toNat]? = some v ∧ encodeValue s.enc v.toNat = some p ∧
          t = drawPattern p (enterState .print s)) ∨
      (s.st = .idle ∧ s.pr = false ∧ s.strobeTicks ≤ s.sc ∧
        t = setActive (followingDigit s.n s.ad) (setCounter 0 (enterState .nextDigit s)))) := by
  obtain ⟨hi, h⟩ := afterFirstInit_next h
  refine ⟨hi, ?_⟩
  unfold twoPasses at h
  cases hst : s.st <;> simp only [hst, nextFsm] at h
  · obtain ⟨hc, ht⟩ := countIdle_next h
    exact .inl ⟨.inl rfl, hc, ht⟩
  · cases hp : s.pr <;> simp only [hp] at h
    · split at h
      · simp at *
      · split at h
        · rename_i hx
          exact .inr (.inr ⟨rfl, rfl, strobeExpired_iff.1 hx, by cases h; rfl⟩)
        · rename_i hx
          obtain ⟨hc, ht⟩ := countIdle_next h
          rw [strobeExpired_iff] at hx
          exact .inl ⟨.inr (.inr ⟨rfl, rfl, by omega⟩), hc, ht⟩
    · obtain ⟨v, p, hv, hp', ht⟩ := printDigit_next h
      exact .inr (.inl ⟨.inr ⟨rfl, rfl⟩, v, p, hv, hp', ht⟩)
  · obtain ⟨hc, ht⟩ := countIdle_next h
    exact .inl ⟨.inr (.inl rfl), hc, ht⟩
  · obtain ⟨v, p, hv, hp', ht⟩ := printDigit_next h
    exact .inr (.inl ⟨.inl rfl, v, p, hv, hp', ht⟩)

end Meanings

section Dispatch

variable {s t : State}

/-- The meaning of every ROM row is a lookup, which changes nothing. -/
theorem exec_romRow {i : Instr} {row : Nat} (h : i.romRow = some row) : exec i s = .next s := by
  cases i <;> simp only [Instr.romRow, reduceCtorEq] at h <;> first | exact lookUp_eq (by omega) | rfl

/-- The environment can invoke none of the ROM rows. -/
theorem operationsOf_not_rom {x : Input} {i : Instr} (h : i ∈ operationsOf x) : i.romRow = none := by
  cases x with
  | word w =>
    rw [List.mem_singleton.1 h, decodeCmd]
    split_ifs <;> rfl
  | strobes initReq setReq tickReq a b =>
    obtain ⟨-, hx⟩ | ⟨-, hx⟩ := strobedOperations_cases initReq setReq tickReq a b
    · rw [operationsOf, hx, List.mem_singleton] at h
      rw [h]; rfl
    · rw [operationsOf, hx, List.mem_append] at h
      obtain h | h := h <;> split_ifs at h <;> simp only [List.mem_singleton, List.not_mem_nil] at h <;> rw [h] <;> rfl

/-- Everything exec can do when it answers a next state. -/
theorem exec_next {i : Instr} (h : exec i s = .next t) :
    (∃ a b, i = .nop a b ∧ t = s) ∨
    (∃ a b, i = .tick a b ∧ execTick a b s = .next t) ∨
    (∃ index value, i = .setDigit index value ∧ execSetDigit index value s = .next t) ∨
    (∃ a b, i = .init a b ∧ execInit a b s = .next t) ∨
    (i.romRow ≠ none ∧ t = s) := by
  cases hr : i.romRow with
  | some row =>
    rw [exec_romRow (s := s) hr] at h
    exact .inr (.inr (.inr (.inr ⟨by simp, by cases h; rfl⟩)))
  | none =>
    cases i <;> simp only [Instr.romRow, reduceCtorEq] at hr
    · exact .inl ⟨_, _, rfl, by cases h; rfl⟩
    · exact .inr (.inl ⟨_, _, rfl, h⟩)
    · exact .inr (.inr (.inl ⟨_, _, rfl, h⟩))
    · exact .inr (.inr (.inr (.inl ⟨_, _, rfl, h⟩)))

end Dispatch

end Sys2Proof.Machine
end

