-- ==== Sys2Proof/Laws/PerInstr.lean ====
section
/-! SUPPORT. The statements made of every instruction, one lemma per constructor. WordFormat: a command row is encoded in
the command format, a ROM row in the ROM format with its own index as the address. -/

namespace Sys2Proof.Laws.WordFormat

/-- The format of the instruction's word is its row's, and a ROM row's address is its index (30_encoding.md R61, R69). -/
def Statement (i : Instr) : Prop :=
  match encode i, i.romRow with
  | .cmd _, none => True
  | .rom w, some row => (romIndexField w).toNat = row
  | .cmd _, some _ => False
  | .rom _, none => False

theorem nop (a b : Operand) : Statement (.nop a b) := trivial

theorem tick (a b : Operand) : Statement (.tick a b) := trivial

theorem setDigit (index value : Operand) : Statement (.setDigit index value) := trivial

theorem init (digitCount initialValue : Operand) : Statement (.init digitCount initialValue) := trivial

theorem enc0 : Statement .enc0 := rfl

theorem enc1 : Statement .enc1 := rfl

theorem enc2 : Statement .enc2 := rfl

theorem enc3 : Statement .enc3 := rfl

theorem enc4 : Statement .enc4 := rfl

theorem enc5 : Statement .enc5 := rfl

theorem enc6 : Statement .enc6 := rfl

theorem enc7 : Statement .enc7 := rfl

theorem enc8 : Statement .enc8 := rfl

theorem enc9 : Statement .enc9 := rfl

theorem enc10 : Statement .enc10 := rfl

theorem enc11 : Statement .enc11 := rfl

theorem enc12 : Statement .enc12 := rfl

theorem enc13 : Statement .enc13 := rfl

theorem enc14 : Statement .enc14 := rfl

theorem enc15 : Statement .enc15 := rfl

theorem enc16 : Statement .enc16 := rfl

theorem enc17 (pattern : Pattern) : Statement (.enc17 pattern) := by
  simp [Statement, encode, Instr.romRow]

end Sys2Proof.Laws.WordFormat
end

