-- ==== Sys2Proof/Tests/Slice0.lean ====
section
/-! SUPPORT. Tests. Expected results are copied from spec/: the words from the opcode table and 95_test_vectors.md V8,
the results from 95_test_vectors.md V1 to V4. After them, for each statement with hypotheses, states and operands that
meet them. -/

namespace Sys2Proof.Tests

open Sys2Proof.Machine

section WellFormed

theorem test_wellFormed_init_eight : WellFormed (.init 8#8 16#8) = true := by decide

theorem test_wellFormed_refuses_init_nine : WellFormed (.init 9#8 16#8) = false := by decide

end WellFormed

section Words

/-- 95_test_vectors.md V8: op 00, a = 0xAB, b = 0xCD. -/
theorem test_decode_nop : decode (.cmd 0b00_10101011_11001101#18) = .ok (.nop 0xAB#8 0xCD#8) := by decide

theorem test_decode_tick : decode (.cmd 0b01_11111111_11111111#18) = .ok (.tick 0xFF#8 0xFF#8) := by decide

theorem test_decode_setDigit : decode (.cmd 0b10_00000001_00000111#18) = .ok (.setDigit 1#8 7#8) := by decide

theorem test_decode_init : decode (.cmd 0b11_00000011_00010000#18) = .ok (.init 3#8 16#8) := by decide

theorem test_decode_enc0 : decode (.rom 0b0000000111111#13) = .ok .enc0 := by decide

theorem test_decode_enc1 : decode (.rom 0b0000100000110#13) = .ok .enc1 := by decide

theorem test_decode_enc2 : decode (.rom 0b0001001011011#13) = .ok .enc2 := by decide

theorem test_decode_enc3 : decode (.rom 0b0001101001111#13) = .ok .enc3 := by decide

theorem test_decode_enc4 : decode (.rom 0b0010001100110#13) = .ok .enc4 := by decide

theorem test_decode_enc5 : decode (.rom 0b0010101101101#13) = .ok .enc5 := by decide

theorem test_decode_enc6 : decode (.rom 0b0011001111101#13) = .ok .enc6 := by decide

theorem test_decode_enc7 : decode (.rom 0b0011100000111#13) = .ok .enc7 := by decide

theorem test_decode_enc8 : decode (.rom 0b0100001111111#13) = .ok .enc8 := by decide

theorem test_decode_enc9 : decode (.rom 0b0100101101111#13) = .ok .enc9 := by decide

theorem test_decode_enc10 : decode (.rom 0b0101001110111#13) = .ok .enc10 := by decide

theorem test_decode_enc11 : decode (.rom 0b0101101111100#13) = .ok .enc11 := by decide

theorem test_decode_enc12 : decode (.rom 0b0110000111001#13) = .ok .enc12 := by decide

theorem test_decode_enc13 : decode (.rom 0b0110101011110#13) = .ok .enc13 := by decide

theorem test_decode_enc14 : decode (.rom 0b0111001111001#13) = .ok .enc14 := by decide

theorem test_decode_enc15 : decode (.rom 0b0111101110001#13) = .ok .enc15 := by decide

theorem test_decode_enc16 : decode (.rom 0b1000000000000#13) = .ok .enc16 := by decide

theorem test_decode_enc17 : decode (.rom 0b1000110100101#13) = .ok (.enc17 0xA5#8) := by decide

theorem test_decode_refuses_row_18 : decode (.rom 0b1001000000000#13) = .error .romIndexOutsideTable := by decide

theorem test_decode_refuses_other_contents : decode (.rom 0b0000000111110#13) = .error .romContentsNotInTable := by
  decide

/-- The four words of 30_encoding.md R62 and 41_initialize.md R90, and a ROM row image, as the opcode table numbers their
bits. -/
theorem test_decodeTableWord :
    decodeTableWord 24 0x20107 = some (.setDigit 1#8 7#8) ∧ decodeTableWord 24 0x30300 = some (.init 3#8 0#8) ∧
    decodeTableWord 16 0x707 = some .enc7 ∧ decodeTableWord 24 0x40000 = none := by decide

/-- 30_encoding.md R68. -/
theorem test_spelling : spelling (initOf 3#8) = "INIT 3, 16" ∧ spelling (clearOf 1#8) = "SET_DIGIT 1, 16" := by decide

end Words

section Meanings

/-- 95_test_vectors.md V1: every row of the default table, and no value from 18 on. -/
theorem test_encode_rows :
    (List.range 17).map (fun v => encodeValue Config.encTable v) =
      [0x3F#8, 0x06#8, 0x5B#8, 0x4F#8, 0x66#8, 0x6D#8, 0x7D#8, 0x07#8, 0x7F#8, 0x6F#8, 0x77#8, 0x7C#8, 0x39#8, 0x5E#8,
        0x79#8, 0x71#8, 0x00#8].map some ∧
    encodeValue Config.encTable 18 = none ∧ encodeValue Config.encTable 255 = none := by decide

/-- The state in which 95_test_vectors.md V4 takes its steps: N = 3, S = 3, dv = [1,7,16]; the pins show the 7 on
digit 1. -/
def machine (st : FsmState) (ad : BitVec 3) (sc : Nat) (pr : Bool) : State where
  n := 3
  dv := [1#5, 7#5, 16#5]
  ad := ad
  sc := sc
  pr := pr
  st := st
  seg := #v[.high, .high, .high, .low, .low, .low, .low, .low]
  com := [.high, .low, .high]
  strobeTicks := 3
  enc := Config.encTable.set 17 0xA5#8
  scWidth := none
  initialised := true
  inputs := []

/-- 95_test_vectors.md V4, the transitions of rows 1 to 12 and 14 (S = 3) and of row 13 (S = 0). -/
theorem test_transitions :
    nextFsm .init true 0 3 = .idle ∧ nextFsm .idle true 1 3 = .print ∧ nextFsm .print false 1 3 = .idle ∧
    nextFsm .idle false 2 3 = .idle ∧ nextFsm .idle false 3 3 = .nextDigit ∧ nextFsm .nextDigit false 0 3 = .print ∧
    nextFsm .idle true 3 3 = .print ∧ nextFsm .print false 3 3 = .idle ∧ nextFsm .idle false 4 3 = .nextDigit ∧
    nextFsm .nextDigit true 0 3 = .print ∧ nextFsm .idle false 5 3 = .nextDigit ∧ nextFsm .print true 0 3 = .idle ∧
    nextFsm .idle false 7 3 = .nextDigit ∧ nextFsm .idle false 0 0 = .nextDigit := by decide

/-- 95_test_vectors.md V4 row 11: the wrap from digit 2 to digit 0, with nothing else changed. -/
theorem test_tick_wraps :
    nextOf (exec tickOf (machine .idle 2#3 5 false)) = some (machine .nextDigit 0#3 0 false) := by decide

/-- 95_test_vectors.md V4 row 10: digit 2 is BLANK, `SEG = 0x00`, `COM = 0b011`, and the flag is cleared. -/
theorem test_tick_prints :
    nextOf (exec tickOf (machine .nextDigit 2#3 0 true)) =
      some
        { machine .print 2#3 0 false with
          seg := #v[.low, .low, .low, .low, .low, .low, .low, .low]
          com := [.high, .high, .low] } := by decide

/-- 95_test_vectors.md V3 row 2: `index = N-1` is accepted. -/
theorem test_setDigit_accepts_last :
    nextOf (exec (.setDigit 2#8 15#8) (machine .idle 0#3 2 false)) =
      some { machine .idle 0#3 2 true with dv := [1#5, 7#5, 15#5] } := by decide

/-- 95_test_vectors.md V3 row 8: 32 is not taken as 0. -/
theorem test_setDigit_does_not_truncate :
    nextOf (exec (.setDigit 1#8 32#8) (machine .idle 0#3 2 false)) = some (machine .idle 0#3 2 false) := by decide

/-- 95_test_vectors.md V2 row 9: `INIT 2` issued while another display runs. -/
theorem test_init_restarts :
    nextOf (exec (.init 2#8 16#8) (machine .print 1#3 4 false)) =
      some
        { machine .init 0#3 0 true with
          n := 2
          dv := [16#5, 16#5]
          seg := #v[.undef, .undef, .undef, .undef, .undef, .undef, .undef, .undef]
          com := [.undef, .undef] } := by decide

/-- 95_test_vectors.md V2 row 5: `INIT 0` is one digit. -/
theorem test_init_zero_is_one_digit :
    (nextOf (exec (.init 0#8 16#8) (machine .print 1#3 4 false))).map State.n = some 1 := by decide

/-- 40_encoder.md R83: a lookup writes no state. -/
theorem test_enc7_writes_nothing :
    nextOf (exec .enc7 (machine .idle 0#3 2 false)) = some (machine .idle 0#3 2 false) := by decide

/-- 40_encoder.md R82: row 7 is `[1,1,1,0,0,0,0,0]`, and the Print that looks it up draws it. -/
theorem test_rom_row_is_drawn :
    (nextOf (step (State.reset.withFetchWord 16 0x707))).map State.seg =
      some #v[.high, .high, .high, .low, .low, .low, .low, .low] := by decide

/-- 70_reset_and_hazards.md R167: TICK, then SET_DIGIT; the Print draws the old value and the flag is set again. -/
theorem test_strobes_tick_before_setDigit :
    nextOf (step { machine .nextDigit 1#3 0 false with inputs := [.strobes false true true 1#8 9#8] }) =
      some { machine .print 1#3 0 true with dv := [1#5, 9#5, 16#5] } := by decide

/-- A program runs from reset: the first TICK leaves Init (43_tick.md R124). -/
theorem test_first_tick_after_reset :
    (nextOf (step (State.reset.withFetchWord 24 0x10000))).map State.st = some .idle := by decide

end Meanings

section Witnesses

theorem machine_sound {st : FsmState} {ad : BitVec 3} {sc : Nat} {pr : Bool} (had : ad.toNat < 3)
    (hn : st = .nextDigit → sc = 0) (hi : st ≠ .init) (hl : st = .idle → 1 ≤ sc) : Sound (machine st ad sc pr) :=
  ⟨⟨rfl, rfl, rfl⟩, fun w h => (by cases h), fun _ =>
    ⟨(by decide : 1 ≤ 3), (by decide : 3 ≤ 8), rfl, rfl, had, (by decide : ∀ v ∈ [1#5, 7#5, 16#5], v.toNat ≤ 16), hn,
      fun h => absurd h hi, hl, fun w h => (by cases h)⟩⟩

theorem machine_counts (st : FsmState) (ad : BitVec 3) (sc : Nat) (pr : Bool) (c : Nat) :
    (machine st ad sc pr).canCountTo c :=
  fun w h => (by cases h)

/-- What most statements about a TICK ask of a state. -/
def Ready (s : State) : Prop := Sound s ∧ s.initialised = true ∧ s.canCountTo (s.sc + 1)

theorem machine_ready {st : FsmState} {ad : BitVec 3} {sc : Nat} {pr : Bool} (had : ad.toNat < 3)
    (hn : st = .nextDigit → sc = 0) (hi : st ≠ .init) (hl : st = .idle → 1 ≤ sc) : Ready (machine st ad sc pr) :=
  ⟨machine_sound had hn hi hl, rfl, machine_counts _ _ _ _ _⟩

theorem reset_ready : Ready State.reset :=
  ⟨⟨⟨rfl, rfl, rfl⟩, fun w h => (by cases h), fun _ =>
    ⟨(by decide), (by decide), rfl, rfl, (by decide), (by decide), fun h => (by cases h), fun _ => ⟨rfl, rfl, rfl⟩,
      fun h => (by cases h), fun w h => (by cases h)⟩⟩, rfl, fun w h => (by cases h)⟩

/-- The machine before its first INIT. -/
def beforeInit : State := { machine .init 0#3 0 true with initialised := false }

/-- The machine with a counter of two bits. -/
def narrow (st : FsmState) (sc : Nat) : State := { machine st 1#3 sc false with scWidth := some 2 }

theorem witness_encodeOfDecode : ∃ c i, decode c = .ok i := ⟨.cmd 0x2FFFF#18, _, rfl⟩

theorem witness_maskAndMatch :
    0x0ABCD#18 &&& 0x30000#18 = 0x00000#18 ∧ 0x1FFFF#18 &&& 0x30000#18 = 0x10000#18 ∧
    0x2FFFF#18 &&& 0x30000#18 = 0x20000#18 ∧ 0x3FFFF#18 &&& 0x30000#18 = 0x30000#18 := by decide

theorem witness_stepRuns :
    ∃ (s : State) (w : BitVec 18) (rest : List Input) (i : Instr),
      s.inputs = .word w :: rest ∧ decode (.cmd w) = .ok i :=
  ⟨{ State.reset with inputs := [.word 0x30310#18] }, _, _, _, rfl, rfl⟩

theorem witness_fetchedWord :
    (decodeTableWord 24 0x3FFFF = some (.init 255#8 255#8) ∧ (Instr.init 255#8 255#8).romRow = none) ∧
    (decodeTableWord 16 0x11FF = some (.enc17 0xFF#8) ∧ encode (.enc17 0xFF#8) = .rom (17#5 ++ 0xFF#8)) ∧
    (decodeTableWord 16 0x1000 = some .enc16 ∧ encode .enc16 = .rom (16#5 ++ 0x00#8) ∧ 16#5 ≠ 17#5 ∧
      State.reset.initialised = true ∧ State.reset.ad.toNat < State.reset.dv.length) := by decide

theorem witness_invoked :
    Instr.init 1#8 2#8 ∈ operationsOf (.strobes true true true 1#8 2#8) ∧
    { State.reset with inputs := [.word 0x10000#18] }.inputs = [.word 0x10000#18] := by decide

theorem witness_rowImages :
    encode .enc16 = .rom (16#5 ++ 0x00#8) ∧ encode .enc0 = .rom (0#5 ++ 0x3F#8) ∧ 16#5 ≠ 17#5 ∧ 0#5 ≠ 17#5 := by decide

theorem witness_noInput : State.reset.inputs = [] := rfl

/-- A state with one bundle of request strobes presented. -/
def strobed (initReq setReq tickReq : Bool) (s : State) : State :=
  { s with inputs := [.strobes initReq setReq tickReq 1#8 9#8] }

/-- One witness for each clause of the statement about strobes, in its order: INIT alone with and without the others, the
three outcomes of a TICK presented with a SET_DIGIT, TICK alone, SET_DIGIT alone, no request. -/
theorem witness_strobes :
    let s := machine .print 1#3 0 false
    (strobed true true true s).inputs = [.strobes true true true 1#8 9#8] ∧
    (strobed true false false s).inputs = [.strobes true false false 1#8 9#8] ∧
    ((strobed false true true s).inputs = [.strobes false true true 1#8 9#8] ∧
      ∃ t, exec tickOf { strobed false true true s with inputs := [] } = .next t) ∧
    ((strobed false true true (narrow .print 3)).inputs = [.strobes false true true 1#8 9#8] ∧
      ∃ f, exec tickOf { strobed false true true (narrow .print 3) with inputs := [] } = .fault f) ∧
    ((strobed false true true beforeInit).inputs = [.strobes false true true 1#8 9#8] ∧
      ∃ r, exec tickOf { strobed false true true beforeInit with inputs := [] } = .refused r) ∧
    (strobed false false true s).inputs = [.strobes false false true 1#8 9#8] ∧
    (strobed false true false s).inputs = [.strobes false true false 1#8 9#8] ∧
    (strobed false false false s).inputs = [.strobes false false false 1#8 9#8] :=
  ⟨rfl, rfl, ⟨rfl, _, rfl⟩, ⟨rfl, _, rfl⟩, ⟨rfl, _, rfl⟩, rfl, rfl, rfl⟩

theorem witness_romRowsOutside :
    17 < ((0b1001000000000#13).extractLsb' 8 5).toNat ∧ 17 < ((0b1111111111111#13).extractLsb' 8 5).toNat ∧
    State.reset.initialised = true ∧ State.reset.ad.toNat < State.reset.dv.length := by decide

theorem witness_initCounts :
    (0#8).toNat ≤ 8 ∧ (8#8).toNat ≤ 8 ∧ 8 < (9#8).toNat ∧ 8 < (255#8).toNat := by decide

theorem witness_initialValue : ∃ t, exec (.init 8#8 7#8) beforeInit = .next t := ⟨_, rfl⟩

theorem witness_initForgets :
    let s := machine .print 1#3 4 false
    s ≠ beforeInit ∧ s.strobeTicks = beforeInit.strobeTicks ∧ s.enc = beforeInit.enc ∧
    s.scWidth = beforeInit.scWidth ∧ s.inputs = beforeInit.inputs := by decide

theorem witness_acceptedSetDigit :
    let s := machine .print 1#3 0 false
    s.initialised = true ∧ s.dv.length = s.n ∧ (0#8).toNat < s.n ∧ (2#8).toNat < s.n ∧ (16#8).toNat ≤ 16 := by decide

theorem witness_rejectedSetDigit :
    let s := machine .print 1#3 0 false
    s.initialised = true ∧ s.n ≤ (3#8).toNat ∧ 16 < (17#8).toNat ∧ 16 < (255#8).toNat := by decide

theorem witness_setDigitNext :
    (∃ t, exec (.setDigit 2#8 16#8) (machine .idle 1#3 3 false) = .next t) ∧
    (∃ t, exec (.setDigit 3#8 16#8) (machine .idle 1#3 3 false) = .next t) := ⟨⟨_, rfl⟩, ⟨_, rfl⟩⟩

theorem witness_beforeInit : beforeInit.initialised = false := rfl

theorem witness_tickFollows :
    (Ready (machine .idle 2#3 3 true) ∧ (machine .idle 2#3 3 true).st = .idle) ∧
    (Ready (machine .idle 2#3 3 false) ∧ (machine .idle 2#3 3 false).strobeTicks ≤ 3) ∧
    (Ready (machine .idle 0#3 2 false) ∧ ¬ (machine .idle 0#3 2 false).strobeTicks ≤ 2) ∧
    (Ready (machine .print 0#3 4 true) ∧ (machine .print 0#3 4 true).st = .print) ∧
    (Ready (machine .nextDigit 2#3 0 true) ∧ (machine .nextDigit 2#3 0 true).st = .nextDigit) ∧
    Ready State.reset ∧ State.reset.st = .init :=
  ⟨⟨machine_ready (by decide) (by simp) (by simp) (by simp), rfl⟩,
    ⟨machine_ready (by decide) (by simp) (by simp) (by simp), by decide⟩,
    ⟨machine_ready (by decide) (by simp) (by simp) (by simp), by decide⟩,
    ⟨machine_ready (by decide) (by simp) (by simp) (by simp), rfl⟩,
    ⟨machine_ready (by decide) (by simp) (by simp) (by simp), rfl⟩, reset_ready, rfl⟩

theorem witness_zeroStrobe :
    Ready (machine .idle 2#3 1 false) ∧ Ready (machine .print 0#3 0 false) ∧ Ready State.reset :=
  ⟨machine_ready (by decide) (by simp) (by simp) (by simp), machine_ready (by decide) (by simp) (by simp) (by simp),
    reset_ready⟩

theorem witness_noTickToInit : ∃ t, exec (.tick 0#8 0#8) (machine .idle 2#3 1 false) = .next t := ⟨_, rfl⟩

theorem witness_idleCounts :
    ((narrow .idle 2).initialised = true ∧ (narrow .idle 2).st = .idle ∧ (narrow .idle 2).pr = false ∧
      (narrow .idle 2).sc < (narrow .idle 2).strobeTicks ∧ (narrow .idle 2).canCountTo 3) ∧
    (narrow .print 3).st = .print ∧ (narrow .print 3).scWidth = some 2 ∧ (narrow .print 3).sc + 1 = 2 ^ 2 :=
  ⟨⟨rfl, rfl, rfl, by decide, fun w h => (by cases h; decide)⟩, rfl, rfl, rfl⟩

theorem witness_printDraws :
    (Ready (machine .nextDigit 2#3 0 false) ∧ (machine .nextDigit 2#3 0 false).st = .nextDigit) ∧
    (Ready (machine .idle 0#3 3 true) ∧ (machine .idle 0#3 3 true).st = .idle ∧ (machine .idle 0#3 3 true).pr = true) ∧
    (∃ t, exec tickOf (machine .nextDigit 2#3 0 false) = .next t ∧ t.seg ≠ (machine .nextDigit 2#3 0 false).seg) ∧
    (∃ t, exec (.init 3#8 0#8) (machine .idle 1#3 3 true) = .next t ∧ t.com ≠ (machine .idle 1#3 3 true).com) :=
  ⟨⟨machine_ready (by decide) (by simp) (by simp) (by simp), rfl⟩,
    ⟨machine_ready (by decide) (by simp) (by simp) (by simp), rfl, rfl⟩,
    ⟨_, rfl, by decide⟩, ⟨_, rfl, by decide⟩⟩

theorem witness_advances :
    let s := machine .idle 2#3 3 false
    Sound s ∧ s.initialised = true ∧ s.st = .idle ∧ s.pr = false ∧ s.strobeTicks ≤ s.sc ∧ s.ad.toNat = s.n - 1 :=
  ⟨machine_sound (by decide) (by simp) (by simp) (by simp), rfl, rfl, rfl, by decide, rfl⟩

theorem witness_flagChanges :
    (∃ t, exec tickOf (machine .idle 1#3 3 true) = .next t ∧ t.pr = false) ∧
    (∃ t, exec (.setDigit 1#8 7#8) (machine .idle 1#3 3 false) = .next t ∧ t.pr = true) ∧
    (∃ t, exec (.init 1#8 7#8) (machine .idle 1#3 3 false) = .next t ∧ t.pr = true) :=
  ⟨⟨_, rfl, rfl⟩, ⟨_, rfl, rfl⟩, ⟨_, rfl, rfl⟩⟩

theorem witness_countChanges :
    ∃ t, exec (.init 8#8 7#8) (machine .idle 1#3 3 false) = .next t ∧ t.n ≠ (machine .idle 1#3 3 false).n :=
  ⟨_, rfl, by decide⟩

theorem witness_registerChanges :
    ∃ t, exec (.setDigit 2#8 0#8) (machine .idle 1#3 3 false) = .next t ∧
      t.dv[2]? ≠ (machine .idle 1#3 3 false).dv[2]? := ⟨_, rfl, by decide⟩

theorem witness_pointer : (8 ≤ 8 ∧ (7#3).toNat < 8) ∧ 1 ≤ 8 ∧ (0#3).toNat < 1 := by decide

theorem machine_presented {st : FsmState} {ad : BitVec 3} {sc : Nat} {pr : Bool} {w : Nat}
    (h : Sound (machine st ad sc pr)) : Sound ((machine st ad sc pr).withFetchWord 24 w) :=
  ⟨h.sourceRows, h.strobeFits, fun hi => ⟨(h.running hi).1, (h.running hi).2, (h.running hi).3, (h.running hi).4,
    (h.running hi).5, (h.running hi).6, (h.running hi).7, (h.running hi).8, (h.running hi).9, (h.running hi).10⟩⟩

theorem witness_stepKeepsSound :
    let s := (machine .idle 1#3 3 false).withFetchWord 24 0x10000
    Sound s ∧ ∃ t, step s = .next t :=
  ⟨machine_presented (machine_sound (by decide) (by simp) (by simp) (by simp)), _, rfl⟩

theorem machine_display (pr : Bool) (sc : Nat) : (machine .print 1#3 sc pr).displaySound :=
  .inr ⟨by simp [machine], 7, by decide, ⟨0x07#8, rfl, rfl, rfl⟩, fun _ => ⟨7#5, rfl, rfl⟩⟩

theorem witness_stepKeepsDisplay :
    let s := (machine .print 1#3 0 false).withFetchWord 24 0x20000
    Sound s ∧ (s.initialised = true → s.displaySound) ∧ ∃ t, step s = .next t ∧ t.initialised = true :=
  ⟨machine_presented (machine_sound (by decide) (by simp) (by simp) (by simp)), fun _ => machine_display false 0,
    _, rfl, rfl⟩

theorem witness_oneCommonLow :
    let s := machine .print 1#3 0 false
    Sound s ∧ s.initialised = true ∧ s.displaySound ∧ ¬ s.pinsUndefined ∧ 0 ≠ s.shownDigit ∧ 2 < s.n :=
  ⟨machine_sound (by decide) (by simp) (by simp) (by simp), rfl, machine_display _ _,
    fun h => absurd h.1 (by decide), by decide, by decide⟩

theorem witness_errorRow : Sound (machine .idle 1#3 3 true) ∧ Sound (machine .nextDigit 2#3 0 false) :=
  ⟨machine_sound (by decide) (by simp) (by simp) (by simp), machine_sound (by decide) (by simp) (by simp) (by simp)⟩

theorem witness_firstDraw :
    (0#8).toNat ≤ 8 ∧ (8#8).toNat ≤ 8 ∧ SourceRows (narrow .init 0).enc ∧ (narrow .init 0).canCountTo 1 :=
  ⟨by decide, by decide, ⟨rfl, rfl, rfl⟩, fun w h => (by cases h; decide)⟩

theorem witness_schedule :
    let s := machine .print 1#3 0 false
    Sound s ∧ s.initialised = true ∧ s.displaySound ∧ s.st = .print ∧ s.pr = false ∧ s.sc = 0 ∧
    s.canCountTo s.idleTicks :=
  ⟨machine_sound (by decide) (by simp) (by simp) (by simp), rfl, machine_display _ _, rfl, rfl, rfl,
    machine_counts _ _ _ _ _⟩

theorem witness_redraw :
    (Ready (machine .idle 1#3 9 false) ∧ (machine .idle 1#3 9 false).accepts 2#8 16#8) ∧
    (Ready (machine .nextDigit 2#3 0 false) ∧ (machine .nextDigit 2#3 0 false).accepts 2#8 16#8) ∧
    (Ready (machine .print 1#3 9 false) ∧ (machine .print 1#3 9 false).accepts 0#8 0#8) ∧
    Ready State.reset ∧ State.reset.accepts 0#8 16#8 :=
  ⟨⟨machine_ready (by decide) (by simp) (by simp) (by simp), ⟨by decide, by decide⟩⟩,
    ⟨machine_ready (by decide) (by simp) (by simp) (by simp), ⟨by decide, by decide⟩⟩,
    ⟨machine_ready (by decide) (by simp) (by simp) (by simp), ⟨by decide, by decide⟩⟩,
    reset_ready, ⟨by decide, by decide⟩⟩

theorem witness_pendingRedraw :
    let s := machine .idle 1#3 3 true
    Sound s ∧ s.initialised = true ∧ s.st = .idle ∧ s.pr = true ∧ s.strobeTicks ≤ s.sc ∧ s.canCountTo (s.sc + 1) :=
  ⟨machine_sound (by decide) (by simp) (by simp) (by simp), rfl, rfl, rfl, by decide, machine_counts _ _ _ _ _⟩

theorem witness_starvation :
    let s := machine .print 1#3 0 false
    Sound s ∧ s.initialised = true ∧ s.st = .print ∧ (∀ r ∈ [(1#8, 1#8), (2#8, 16#8)], s.accepts r.1 r.2) ∧
    s.canCountTo (s.sc + 2) :=
  ⟨machine_sound (by decide) (by simp) (by simp) (by simp), rfl, rfl,
    fun r h => (by simp at h; rcases h with rfl | rfl <;> exact ⟨by decide, by decide⟩), machine_counts _ _ _ _ _⟩

theorem witness_sourcePatterns :
    (Ready (machine .nextDigit 1#3 0 false) ∧ (machine .nextDigit 1#3 0 false).dv[1]? = some 7#5) ∧
    (Ready (machine .nextDigit 2#3 0 false) ∧ (machine .nextDigit 2#3 0 false).dv[2]? = some 16#5) ∧
    let s := { machine .nextDigit 0#3 0 false with dv := [0#5, 7#5, 16#5] }
    Sound s ∧ s.initialised = true ∧ s.st = .nextDigit ∧ s.dv[0]? = some 0#5 :=
  ⟨⟨machine_ready (by decide) (by simp) (by simp) (by simp), rfl⟩,
    ⟨machine_ready (by decide) (by simp) (by simp) (by simp), rfl⟩,
    ⟨⟨rfl, rfl, rfl⟩, fun w h => (by cases h), fun _ =>
      ⟨(by decide), (by decide), rfl, rfl, (by decide), (by decide), fun _ => rfl, fun h => (by cases h),
        fun h => (by cases h), fun w h => (by cases h)⟩⟩, rfl, rfl, rfl⟩

theorem witness_encodeOutside :
    let s := { machine .nextDigit 1#3 0 false with dv := [0#5, 18#5, 31#5] }
    s.initialised = true ∧ s.st = .nextDigit ∧ s.dv[s.ad.toNat]? = some 18#5 ∧ 18 ≤ (18#5).toNat ∧ 18 ≤ (31#5).toNat := by
  decide

end Witnesses

end Sys2Proof.Tests
end

/-! PROOFS. The family of 10_state.md. First the facts about the model's definitions that the family needs: operands and
pin levels, the six effects an instruction can have, one rule per effect for each of the two invariants, and the
induction over the operations of a step. Then the statements. -/

namespace Sys2Proof.Machine

section OperandFacts

theorem toNat_digitValue_of_le {v : Nat} (h : v ≤ Config.maxDigitValue) : (BitVec.ofNat 5 v).toNat = v := by
  simp only [Config.maxDigitValue] at h
  rw [BitVec.toNat_ofNat]
  exact Nat.mod_eq_of_lt (by omega)

theorem one_le_effectiveCount (k : Nat) : 1 ≤ effectiveCount k := le_max_right k 1

theorem effectiveCount_le_maxDigits {k : Nat} (h : k ≤ Config.maxDigits) : effectiveCount k ≤ Config.maxDigits :=
  max_le h (by decide)

theorem followingDigit_lt {n : Nat} (ad : BitVec 3) (hn : 1 ≤ n) (hn' : n ≤ 8) : (followingDigit n ad).toNat < n := by
  rw [followingDigit_toNat ad hn hn']
  exact Nat.mod_lt _ hn

theorem followingDigit_iterate_toNat {n : Nat} {ad : BitVec 3} (hn : n ≤ 8) (had : ad.toNat < n) (k : Nat) :
    ((followingDigit n)^[k] ad).toNat = (ad.toNat + k) % n := by
  induction k with
  | zero => exact (Nat.mod_eq_of_lt had).symm
  | succ k ih =>
    rw [Function.iterate_succ_apply', followingDigit_toNat _ (by omega) hn, ih, Nat.mod_add_mod, Nat.add_assoc]

theorem fsmCode_fsmOfCode (c : BitVec 2) : fsmCode (fsmOfCode c) = c := by
  revert c
  decide

theorem fsmOfCode_fsmCode (st : FsmState) : fsmOfCode (fsmCode st) = st := by
  cases st <;> rfl

end OperandFacts

section PinFacts

theorem levelOf_bne_eq_low {k j : Nat} : levelOf (k != j) = .low ↔ k = j := by
  by_cases h : k = j <;> simp [levelOf, h]

theorem commonLevels_get_self {n j : Nat} (h : j < n) : (commonLevels n j)[j]? = some .low := by
  rw [commonLevels_get h, levelOf_bne_eq_low.2 rfl]

theorem commonLevels_get_ne {n j k : Nat} (h : k < n) (hne : k ≠ j) : (commonLevels n j)[k]? = some .high := by
  rw [commonLevels_get h, bne_iff_ne.2 hne, levelOf, if_pos rfl]

/-- The low pins of a selection are the occurrences of the selected digit among the digits. -/
theorem commonLevels_count_low {n j : Nat} (h : j < n) : (commonLevels n j).count .low = 1 := by
  have hlow : ((· == PinLevel.low) ∘ fun k => levelOf (k != j)) = (· == j) := by
    funext k
    rw [Bool.eq_iff_iff]
    simp [levelOf_bne_eq_low]
  rw [commonLevels, List.count, List.countP_map, hlow]
  exact List.count_eq_one_of_mem List.nodup_range (List.mem_range.2 h)

theorem undefSegments_eq_replicate : undefSegments = Vector.replicate 8 .undef := rfl

end PinFacts

section MeaningFacts

variable {s : State}

theorem afterFirstInit_of_not_initialised {r : Result} (h : s.initialised = false) :
    afterFirstInit s r = .refused .beforeFirstInit := by
  simp [afterFirstInit, h]

theorem execInit_eq {a : Operand} (b : Operand) (h : operand a ≤ Config.maxDigits) :
    execInit a b s = .next (startDisplay (effectiveCount (operand a)) s) :=
  if_neg (Nat.not_lt.2 h)

theorem canCountTo_zero (s : State) : s.canCountTo 0 := fun w _ => Nat.two_pow_pos w

theorem canCountTo_of_unbounded (h : s.scWidth = none) (c : Nat) : s.canCountTo c := by
  intro w hw
  rw [h] at hw
  cases hw

theorem startDisplay_reset : startDisplay (effectiveCount 0) State.reset = State.reset := rfl

end MeaningFacts

section Effects

/-- What an instruction that completes can have done: nothing, one of the three actions of a TICK after its transition, a
store, or a start of the display. -/
inductive Effect (s : State) : Instr → State → Prop where
  | unchanged (i : Instr) : Effect s i s
  | count (a b : Operand) (hi : s.initialised = true)
      (hst : s.st = .init ∨ s.st = .print ∨ s.st = .idle ∧ s.pr = false ∧ s.sc < s.strobeTicks)
      (hc : s.canCountTo (s.sc + 1)) : Effect s (.tick a b) (setCounter (s.sc + 1) (enterState .idle s))
  | draw (a b : Operand) (v : DigitValue) (p : Pattern) (hi : s.initialised = true)
      (hst : s.st = .nextDigit ∨ s.st = .idle ∧ s.pr = true) (hv : s.dv[s.ad.toNat]? = some v)
      (hp : encodeValue s.enc v.toNat = some p) : Effect s (.tick a b) (drawPattern p (enterState .print s))
  | advance (a b : Operand) (hi : s.initialised = true) (hst : s.st = .idle) (hpr : s.pr = false)
      (hsc : s.strobeTicks ≤ s.sc) :
      Effect s (.tick a b) (setActive (followingDigit s.n s.ad) (setCounter 0 (enterState .nextDigit s)))
  | store (index value : Operand) (hi : s.initialised = true) (ha : s.accepts index value)
      (hl : operand index < s.dv.length) :
      Effect s (.setDigit index value) (setPending (putDigit (operand index) (BitVec.ofNat 5 (operand value)) s))
  | start (a b : Operand) (ha : operand a ≤ Config.maxDigits) :
      Effect s (.init a b) (startDisplay (effectiveCount (operand a)) s)

variable {s t : State}

theorem execTick_effect {a b : Operand} (h : execTick a b s = .next t) : Effect s (.tick a b) t := by
  obtain ⟨hi, ⟨hst, hc, rfl⟩ | ⟨hst, v, p, hv, hp, rfl⟩ | ⟨hst, hpr, hsc, rfl⟩⟩ := execTick_next a b h
  · exact .count a b hi hst hc
  · exact .draw a b v p hi hst hv hp
  · exact .advance a b hi hst hpr hsc

theorem execSetDigit_effect {index value : Operand} (h : execSetDigit index value s = .next t) :
    Effect s (.setDigit index value) t := by
  obtain ⟨hi, ⟨ha, hl, rfl⟩ | ⟨-, rfl⟩⟩ := execSetDigit_next h
  · exact .store index value hi ha hl
  · exact .unchanged _

theorem execInit_effect {a b : Operand} (h : execInit a b s = .next t) : Effect s (.init a b) t := by
  obtain ⟨ha, rfl⟩ := execInit_next a b h
  exact .start a b ha

theorem exec_effect {i : Instr} (h : exec i s = .next t) : Effect s i t := by
  obtain ⟨a, b, -, rfl⟩ | ⟨a, b, rfl, ht⟩ | ⟨index, value, rfl, ht⟩ | ⟨a, b, rfl, ht⟩ | ⟨-, rfl⟩ := exec_next h
  · exact .unchanged i
  · exact execTick_effect ht
  · exact execSetDigit_effect ht
  · exact execInit_effect ht
  · exact .unchanged i

theorem Effect.constants {i : Instr} (h : Effect s i t) :
    t.strobeTicks = s.strobeTicks ∧ t.enc = s.enc ∧ t.scWidth = s.scWidth ∧ t.inputs = s.inputs := by
  cases h <;> exact ⟨rfl, rfl, rfl, rfl⟩

end Effects

section Induction

variable {P : State → Prop} {s t : State}

/-- A property that every instruction keeps is kept by every sequence of instructions. -/
theorem runAll_keeps {run : Instr → State → Result} (hrun : ∀ i s t, run i s = .next t → P s → P t) {is : List Instr}
    (hs : P s) (h : runAll run is s = .next t) : P t := by
  induction is generalizing s with
  | nil => cases h; exact hs
  | cons i is ih =>
    simp only [runAll] at h
    split at h
    · exact ih (hrun _ _ _ ‹_› hs) h
    · cases h
    · cases h

/-- A property that every instruction keeps, and that does not depend on the input stream, is kept by every step. -/
theorem step_keeps (hin : ∀ is s, P s → P (setInputs is s)) (hexec : ∀ i s t, exec i s = .next t → P s → P t)
    (hs : P s) (h : step s = .next t) : P t := by
  obtain ⟨-, hx⟩ | ⟨x, rest, -, hx⟩ := takeInput_cases s <;> simp only [step, hx] at h
  · exact hexec nopOf s t h hs
  · exact runAll_keeps hexec (hin rest s hs) h

end Induction

section Soundness

variable {s t : State}

theorem Running.setInputs (hr : Running s) (is : List Input) : Running (setInputs is s) := { hr with }

theorem Running.count (hr : Running s) (hc : s.canCountTo (s.sc + 1)) :
    Running (setCounter (s.sc + 1) (enterState .idle s)) :=
  { hr with
    advanceCleared := by simp
    startState := by simp
    idleCounted := by simp
    counterFits := hc }

theorem Running.draw (hr : Running s) (p : Pattern) : Running (drawPattern p (enterState .print s)) :=
  { hr with
    commonPins := commonLevels_length s.n s.ad.toNat
    advanceCleared := by simp
    startState := by simp
    idleCounted := by simp }

theorem Running.advance (hr : Running s) :
    Running (setActive (followingDigit s.n s.ad) (setCounter 0 (enterState .nextDigit s))) :=
  { hr with
    activeInRange := followingDigit_lt s.ad hr.countPositive hr.countAtMostEight
    advanceCleared := by simp
    startState := by simp
    idleCounted := by simp
    counterFits := canCountTo_zero s }

theorem Running.store (hr : Running s) {value : Nat} (hv : value ≤ Config.maxDigitValue) (index : Nat) :
    Running (setPending (putDigit index (BitVec.ofNat 5 value) s)) :=
  { hr with
    registers := (List.length_set).trans hr.registers
    digitsValid := by
      intro v hmem
      obtain hold | rfl := List.mem_or_eq_of_mem_set hmem
      · exact hr.digitsValid v hold
      · exact (toNat_digitValue_of_le hv).trans_le hv
    startState := by
      intro hinit
      obtain ⟨hsc, had, -⟩ := hr.startState hinit
      exact ⟨hsc, had, rfl⟩ }

/-- INIT makes a running state of any state, so nothing is asked of the earlier one. -/
theorem running_startDisplay {count : Nat} (hpos : 1 ≤ count) (hle : count ≤ Config.maxDigits) (s : State) :
    Running (startDisplay count s) where
  countPositive := hpos
  countAtMostEight := hle
  registers := List.length_replicate
  commonPins := List.length_replicate
  activeInRange := hpos
  digitsValid := by
    intro v hmem
    rw [List.eq_of_mem_replicate hmem]
    decide
  advanceCleared := by simp
  startState := by simp
  idleCounted := by simp
  counterFits := canCountTo_zero s

theorem Effect.running {i : Instr} (h : Effect s i t) (hs : s.initialised = true → Running s)
    (ht : t.initialised = true) : Running t := by
  cases h with
  | unchanged => exact hs ht
  | count a b hi hst hc => exact (hs hi).count hc
  | draw a b v p hi => exact (hs hi).draw p
  | advance a b hi => exact (hs hi).advance
  | store index value hi ha => exact (hs hi).store ha.2 _
  | start a b ha => exact running_startDisplay (one_le_effectiveCount _) (effectiveCount_le_maxDigits ha) s

theorem Sound.setInputs (hs : Sound s) (is : List Input) : Sound (setInputs is s) :=
  { hs with running := fun hi => (hs.running hi).setInputs is }

theorem exec_keeps_sound {i : Instr} (h : exec i s = .next t) (hs : Sound s) : Sound t := by
  have he := exec_effect h
  obtain ⟨hstrobe, henc, hwidth, -⟩ := he.constants
  refine ⟨henc ▸ hs.sourceRows, ?_, he.running hs.running⟩
  intro w hw
  exact hstrobe ▸ hs.strobeFits w (hwidth ▸ hw)

end Soundness

section Display

variable {s t : State}

theorem shownDigit_of_ne (h : s.st ≠ .nextDigit) : s.shownDigit = s.ad.toNat := if_neg h

theorem Running.shownDigit_lt (hr : Running s) : s.shownDigit < s.n := by
  unfold State.shownDigit
  split
  · exact Nat.mod_lt _ hr.countPositive
  · exact hr.activeInRange

/-- Between an advance and the Print that follows it, the digit before the active one is still shown: the one that was
active before the advance. -/
theorem Running.shownDigit_advance (hr : Running s) :
    (setActive (followingDigit s.n s.ad) (setCounter 0 (enterState .nextDigit s))).shownDigit = s.ad.toNat := by
  have hpos := hr.countPositive
  calc ((followingDigit s.n s.ad).toNat + (s.n - 1)) % s.n
      = ((s.ad.toNat + 1) % s.n + (s.n - 1)) % s.n := by rw [followingDigit_toNat _ hpos hr.countAtMostEight]
    _ = (s.ad.toNat + s.n) % s.n := by rw [Nat.mod_add_mod]; congr 1; omega
    _ = s.ad.toNat := by rw [Nat.add_mod_right, Nat.mod_eq_of_lt hr.activeInRange]

theorem displaySound_startDisplay (count : Nat) (s : State) : (startDisplay count s).displaySound :=
  .inl ⟨⟨rfl, rfl⟩, .inl rfl⟩

theorem displaySound_draw (hr : Running s) {v : DigitValue} {p : Pattern} (hv : s.dv[s.ad.toNat]? = some v)
    (hp : encodeValue s.enc v.toNat = some p) : (drawPattern p (enterState .print s)).displaySound :=
  .inr ⟨by simp, v.toNat, hr.digitsValid v (List.mem_of_getElem? hv), ⟨p, hp, rfl, rfl⟩, fun _ => ⟨v, hv, rfl⟩⟩

/-- An Idle TICK leaves the pins and the shown digit; from Init the first Print is still to come, for INIT has set the
flag. -/
theorem displaySound_count (hr : Running s) (hd : s.displaySound)
    (hst : s.st = .init ∨ s.st = .print ∨ s.st = .idle ∧ s.pr = false ∧ s.sc < s.strobeTicks) :
    (setCounter (s.sc + 1) (enterState .idle s)).displaySound := by
  obtain ⟨hundef, hcome⟩ | ⟨-, v, hle, hshow, hreg⟩ := hd
  · obtain hinit | hprint | ⟨hidle, hpr, -⟩ := hst
    · obtain ⟨-, -, hpr⟩ := hr.startState hinit
      exact .inl ⟨hundef, .inr ⟨rfl, hpr⟩⟩
    · simp [hprint] at hcome
    · simp [hidle, hpr] at hcome
  · have hne : s.st ≠ .nextDigit := by
      obtain h | h | ⟨h, -⟩ := hst <;> simp [h]
    rw [shownDigit_of_ne hne] at hshow hreg
    exact .inr ⟨by simp, v, hle, hshow, hreg⟩

theorem displaySound_advance (hr : Running s) (hd : s.displaySound) (hst : s.st = .idle) (hpr : s.pr = false) :
    (setActive (followingDigit s.n s.ad) (setCounter 0 (enterState .nextDigit s))).displaySound := by
  obtain ⟨-, h⟩ | ⟨-, v, hle, hshow, hreg⟩ := hd
  · simp [hst, hpr] at h
  · rw [shownDigit_of_ne (by simp [hst])] at hshow hreg
    refine .inr ⟨by simp, v, hle, ?_⟩
    rw [hr.shownDigit_advance]
    exact ⟨hshow, hreg⟩

theorem displaySound_store (hd : s.displaySound) (index : Nat) (v : DigitValue) :
    (setPending (putDigit index v s)).displaySound := by
  obtain ⟨hundef, hst⟩ | ⟨hinit, w, hle, hshow, -⟩ := hd
  · exact .inl ⟨hundef, hst.imp_right fun h => ⟨h.1, rfl⟩⟩
  · exact .inr ⟨hinit, w, hle, hshow, by simp⟩

theorem Effect.displaySound {i : Instr} (h : Effect s i t) (hs : Sound s) (hd : s.initialised = true → s.displaySound)
    (ht : t.initialised = true) : t.displaySound := by
  cases h with
  | unchanged => exact hd ht
  | count a b hi hst => exact displaySound_count (hs.running hi) (hd hi) hst
  | draw a b v p hi hst hv hp => exact displaySound_draw (hs.running hi) hv hp
  | advance a b hi hst hpr => exact displaySound_advance (hs.running hi) (hd hi) hst hpr
  | store index value hi => exact displaySound_store (hd hi) _ _
  | start => exact displaySound_startDisplay _ s

/-- Both invariants together: the display is kept only by sound states. -/
def SoundWithDisplay (s : State) : Prop := Sound s ∧ (s.initialised = true → s.displaySound)

theorem exec_keeps_soundWithDisplay {i : Instr} (h : exec i s = .next t) (hs : SoundWithDisplay s) :
    SoundWithDisplay t :=
  ⟨exec_keeps_sound h hs.1, (exec_effect h).displaySound hs.1 hs.2⟩

end Display

section Settled

/-- Settles O35: every effect keeps a sound state sound, and a step is a sequence of operations. -/
theorem stepKeepsTheStateSound : Obligations.StepKeepsTheStateSound :=
  fun _ _ hs h => step_keeps (fun is _ hs => hs.setInputs is) (fun _ _ _ h hs => exec_keeps_sound h hs) hs h

/-- Settles O37: the invariant of the induction is soundness and the display together. -/
theorem stepKeepsTheDisplaySound : Obligations.StepKeepsTheDisplaySound := by
  intro s t hs hd h
  have ht : SoundWithDisplay t :=
    step_keeps (fun is _ hs => ⟨hs.1.setInputs is, hs.2⟩) (fun _ _ _ h hs => exec_keeps_soundWithDisplay h hs)
      ⟨hs, hd⟩ h
  exact ht.2

/-- Settles O31: of the six effects only a draw clears the flag, and only a store and a start set it. -/
theorem flagFallsOnlyInAPrint : Obligations.FlagFallsOnlyInAPrint := by
  intro i s t h
  cases exec_effect h with
  | unchanged => simp +contextual
  | count => simp +contextual
  | draw a b => exact ⟨fun _ _ => ⟨⟨a, b, rfl⟩, rfl⟩, fun _ hpr => by simp at hpr⟩
  | advance => simp +contextual
  | store index value hi ha => exact ⟨fun _ hpr => by simp at hpr, fun _ _ => .inr ⟨index, value, rfl, ha⟩⟩
  | start a b => exact ⟨fun _ hpr => by simp at hpr, fun _ _ => .inl ⟨a, b, rfl⟩⟩

/-- Settles O32: no effect writes a constant, and only a start writes N. -/
theorem constantsAreFixedAndOnlyInitSetsTheCount : Obligations.ConstantsAreFixedAndOnlyInitSetsTheCount := by
  intro i s t h
  have he := exec_effect h
  obtain ⟨hstrobe, henc, hwidth, hinputs⟩ := he.constants
  refine ⟨hstrobe, henc, hwidth, hinputs, fun hn => ?_⟩
  cases he with
  | start a b ha => exact ⟨a, b, rfl, rfl, effectiveCount_le_maxDigits ha⟩
  | _ => exact absurd rfl hn

/-- Settles O33: of the six effects only a store and a start write registers, and a store writes one. -/
theorem digitRegistersAreWrittenOnlyBySetDigitAndInit : Obligations.DigitRegistersAreWrittenOnlyBySetDigitAndInit := by
  intro i s t h j hj
  cases exec_effect h with
  | store index value hi ha hl =>
    obtain ⟨-, hv⟩ := ha
    have hindex : operand index = j := by
      by_contra hne
      exact hj (List.getElem?_set_ne hne)
    subst hindex
    exact .inr ⟨index, value, rfl, rfl, hv, _, List.getElem?_set_self hl, toNat_digitValue_of_le hv⟩
  | start a b => exact .inl ⟨a, b, rfl⟩
  | _ => exact absurd rfl hj

/-- Settles O34: `k` advances add `k` modulo N. -/
theorem pointerReturnsAfterAllDigits : Obligations.PointerReturnsAfterAllDigits := by
  intro n ad hn had
  constructor
  · intro k
    rw [followingDigit_iterate_toNat hn had]
    exact Nat.mod_lt _ (by omega)
  · apply BitVec.eq_of_toNat_eq
    rw [followingDigit_iterate_toNat hn had, Nat.add_mod_right, Nat.mod_eq_of_lt had]

/-- Settles O39: a display that has been drawn holds the common levels of the shown digit. -/
theorem exactlyOneCommonPinIsLow : Obligations.ExactlyOneCommonPinIsLow := by
  intro s hs hi hd hdrawn
  obtain ⟨hundef, -⟩ | ⟨-, v, -, ⟨p, -, hseg, hcom⟩, -⟩ := hd
  · exact absurd hundef hdrawn
  have hlt := (hs.running hi).shownDigit_lt
  rw [hcom, hseg]
  refine ⟨commonLevels_count_low hlt, commonLevels_length _ _, commonLevels_get_self hlt,
    fun j hj hne => commonLevels_get_ne hj hne, fun k hk => ?_⟩
  rw [segmentLevels_get p k hk]
  exact levelOf_ne_undef _

/-- Settles O6: the two code functions are inverse to each other. -/
theorem fsmCodesAreAllUsed : Obligations.FsmCodesAreAllUsed :=
  ⟨rfl, rfl, rfl, rfl, fsmCode_fsmOfCode, fsmOfCode_fsmCode⟩

/-- Settles O14: a legal INIT starts the display. -/
theorem initLeavesTheResetValues : Obligations.InitLeavesTheResetValues := by
  intro a b s ha
  exact ⟨startDisplay (effectiveCount (operand a)) s, execInit_eq b ha, rfl, rfl, rfl, rfl, rfl, rfl,
    undefSegments_eq_replicate, rfl, rfl, rfl, rfl⟩

/-- Settles O19: the reset state is the display started for no digits, which is one digit. -/
theorem resetIsTheStateAfterInit : Obligations.ResetIsTheStateAfterInit := by
  refine ⟨fun b => ?_, rfl, rfl, rfl, rfl, rfl, rfl, ⟨rfl, rfl⟩, rfl⟩
  calc exec (.init 0#8 b) State.reset
      = .next (startDisplay (effectiveCount 0) State.reset) := execInit_eq b (by decide)
    _ = .next State.reset := by rw [startDisplay_reset]

/-- Settles O23: both meanings stand behind the test for the first INIT. -/
theorem noTickOrSetDigitBeforeTheFirstInit : Obligations.NoTickOrSetDigitBeforeTheFirstInit :=
  fun _ _ _ h => ⟨afterFirstInit_of_not_initialised h, afterFirstInit_of_not_initialised h⟩

/-- Settles O36: the reset state is a started display with the source's rows and an unbounded counter. -/
theorem resetIsSound : Obligations.ResetIsSound where
  sourceRows := ⟨rfl, rfl, rfl⟩
  strobeFits := canCountTo_of_unbounded rfl _
  running := fun _ => startDisplay_reset ▸ running_startDisplay (one_le_effectiveCount 0) (by decide) State.reset

/-- Settles O38: the reset state is a started display. -/
theorem resetDisplayIsSound : Obligations.ResetDisplayIsSound := by
  unfold Obligations.ResetDisplayIsSound
  rw [← startDisplay_reset]
  exact displaySound_startDisplay _ _

end Settled

end Sys2Proof.Machine

/-! PROOFS. The family of 20_memory.md. An accepted SET_DIGIT stores; a second store to the same register and a second
start of the display overwrite everything the first one wrote. -/

namespace Sys2Proof.Machine

section StoreFacts

variable {s : State}

theorem storeDigit_eq {index value : Nat} (h : index < s.dv.length) :
    storeDigit index value s = .next (setPending (putDigit index (BitVec.ofNat 5 value) s)) :=
  if_pos h

theorem execSetDigit_of_accepts {index value : Operand} (hi : s.initialised = true) (ha : s.accepts index value)
    (hl : operand index < s.dv.length) :
    execSetDigit index value s =
      .next (setPending (putDigit (operand index) (BitVec.ofNat 5 (operand value)) s)) := by
  rw [execSetDigit, afterFirstInit_of_initialised hi, classifySetDigit_accepted.2 ha]
  exact storeDigit_eq hl

end StoreFacts

section Overwriting

/-- A store writes one register and the flag, and a second store to that register writes both again. -/
theorem store_store (index : Nat) (v w : DigitValue) (s : State) :
    setPending (putDigit index w (setPending (putDigit index v s))) = setPending (putDigit index w s) := by
  simp only [setPending, putDigit, List.set_set]

/-- A start of the display reads nothing that a start writes. -/
theorem startDisplay_startDisplay (count count' : Nat) (s : State) :
    startDisplay count (startDisplay count' s) = startDisplay count s := rfl

end Overwriting

section SettledMemory

/-- Settles O25: after a rejected first SET_DIGIT the state is the same; after an accepted one the second is accepted in
both states, and its store covers the first. -/
theorem laterSetDigitWins : Obligations.LaterSetDigitWins := by
  intro index first second s t h hsecond
  obtain ⟨hi, ⟨⟨hindex, -⟩, hl, rfl⟩ | ⟨-, rfl⟩⟩ := execSetDigit_next h
  · have ha : s.accepts index second := ⟨hindex, hsecond⟩
    have hl' : operand index < (s.dv.set (operand index) (BitVec.ofNat 5 (operand first))).length :=
      hl.trans_eq List.length_set.symm
    calc execSetDigit index second (setPending (putDigit (operand index) (BitVec.ofNat 5 (operand first)) s))
        = .next (setPending (putDigit (operand index) (BitVec.ofNat 5 (operand second))
            (setPending (putDigit (operand index) (BitVec.ofNat 5 (operand first)) s)))) :=
          execSetDigit_of_accepts hi ha hl'
      _ = .next (setPending (putDigit (operand index) (BitVec.ofNat 5 (operand second)) s)) := by rw [store_store]
      _ = execSetDigit index second s := (execSetDigit_of_accepts hi ha hl).symm
  · rfl

/-- Settles O24: a repeated SET_DIGIT is the later of two with one value, and a repeated INIT starts the same display. -/
theorem repeatedSetDigitAndInitAreIdempotent : Obligations.RepeatedSetDigitAndInitAreIdempotent := by
  intro a b s t
  constructor
  · intro h
    obtain ⟨-, ⟨⟨-, hvalue⟩, -⟩ | ⟨-, rfl⟩⟩ := execSetDigit_next h
    · exact (laterSetDigitWins a b b s t h hvalue).trans h
    · exact h
  · intro h
    obtain ⟨hcount, rfl⟩ := execInit_next a b h
    exact (execInit_eq b hcount).trans (by rw [startDisplay_startDisplay])

end SettledMemory

end Sys2Proof.Machine

/-! PROOFS. The family of 30_encoding.md. First a word and its fields: a word is put together from its fields, and the
fields of a word put together are the parts. Then the rules of the decoder and of one step, and what becomes of a word
of the opcode table that is placed for the next step. -/

namespace Sys2Proof

section Fields

/-- No bit of a command word is outside its three fields (30_encoding.md R61). -/
theorem cmd_fields (w : BitVec 18) : opField w ++ aField w ++ bField w = w := by
  have hop : opField w ++ aField w = w.extractLsb' 8 10 := BitVec.extractLsb'_append_extractLsb'_eq_extractLsb' rfl
  rw [hop]
  exact BitVec.extractLsb'_append_extractLsb'

/-- No bit of a ROM row image is outside its two fields (30_encoding.md R69). -/
theorem rom_fields (w : BitVec 13) : romIndexField w ++ romDataField w = w :=
  BitVec.extractLsb'_append_extractLsb'

theorem fields_of_rom_eq {w : BitVec 13} {row : BitVec 5} {data : Pattern}
    (h : CodeWord.rom w = .rom (row ++ data)) : romIndexField w = row ∧ romDataField w = data := by
  cases h
  exact ⟨romIndexField_append row data, romDataField_append row data⟩

/-- The mask of 30_encoding.md R62 keeps the field `op` and clears both operands. -/
theorem and_opMask (w : BitVec 18) : w &&& 0x30000#18 = opField w ++ 0#8 ++ 0#8 := by
  have hmask : 0x30000#18 = 0b11#2 ++ 0#8 ++ 0#8 := rfl
  calc w &&& 0x30000#18
      = (opField w ++ aField w ++ bField w) &&& (0b11#2 ++ 0#8 ++ 0#8) := by rw [cmd_fields, hmask]
    _ = (opField w &&& 0b11#2) ++ (aField w &&& 0#8) ++ (bField w &&& 0#8) := by
      rw [BitVec.and_append, BitVec.and_append]
    _ = opField w ++ 0#8 ++ 0#8 := by
      rw [show 0b11#2 = BitVec.allOnes 2 from rfl, BitVec.and_allOnes, BitVec.and_zero, BitVec.and_zero]

theorem opField_eq_of_and_opMask {w m : BitVec 18} (h : w &&& 0x30000#18 = m) : opField w = opField m := by
  rw [← h, and_opMask, opField_append]

theorem op_cases (op : BitVec 2) : op = 0b00#2 ∨ op = 0b01#2 ∨ op = 0b10#2 ∨ op = 0b11#2 := by
  revert op
  decide

end Fields

section Decoding

variable {w : BitVec 18}

theorem decodeCmd_of_op_nop (h : opField w = 0b00#2) : decodeCmd w = .nop (aField w) (bField w) := by
  simp [decodeCmd, h]

theorem decodeCmd_of_op_tick (h : opField w = 0b01#2) : decodeCmd w = .tick (aField w) (bField w) := by
  simp [decodeCmd, h]

theorem decodeCmd_of_op_setDigit (h : opField w = 0b10#2) : decodeCmd w = .setDigit (aField w) (bField w) := by
  simp [decodeCmd, h]

theorem decodeCmd_of_op_init (h : opField w = 0b11#2) : decodeCmd w = .init (aField w) (bField w) := by
  simp [decodeCmd, h]

theorem encode_decodeCmd (w : BitVec 18) : encode (decodeCmd w) = .cmd w := by
  have hw := cmd_fields w
  obtain h | h | h | h := op_cases (opField w)
  · rw [decodeCmd_of_op_nop h, encode, cmdWord, ← h, hw]
  · rw [decodeCmd_of_op_tick h, encode, cmdWord, ← h, hw]
  · rw [decodeCmd_of_op_setDigit h, encode, cmdWord, ← h, hw]
  · rw [decodeCmd_of_op_init h, encode, cmdWord, ← h, hw]

/-- A ROM row image that is accepted at the address `k` with the contents of `i` is the image of what it decodes to. -/
theorem encode_of_romRowIf {w : BitVec 13} {k : Nat} {contents : Pattern} {i j : Instr}
    (hk : (romIndexField w).toNat = k) (hi : encode i = .rom (BitVec.ofNat 5 k ++ contents))
    (h : romRowIf (romDataField w) contents i = .ok j) : encode j = .rom w := by
  obtain ⟨hdata, rfl⟩ := romRowIf_ok h
  have hrow : BitVec.ofNat 5 k = romIndexField w := by rw [← hk, BitVec.ofNat_toNat, BitVec.setWidth_eq]
  rw [hi, hrow, ← hdata, rom_fields]

theorem encode_of_decodeRom {w : BitVec 13} {i : Instr} (h : decodeRom w = .ok i) : encode i = .rom w := by
  unfold decodeRom at h
  split at h
  case h_18 hindex =>
    cases h
    have hrow : 0b10001#5 = romIndexField w := (BitVec.eq_of_toNat_eq hindex).symm
    rw [encode, hrow, rom_fields]
  case h_19 => cases h
  all_goals exact encode_of_romRowIf ‹_› rfl h

theorem encode_of_decode {c : CodeWord} {i : Instr} (h : decode c = .ok i) : encode i = c := by
  cases c with
  | cmd w =>
    cases h
    exact encode_decodeCmd w
  | rom w => exact encode_of_decodeRom h

theorem decode_encode (i : Instr) : decode (encode i) = .ok i := by
  cases i with
  | nop | tick | setDigit | init => simp [encode, cmdWord, decode, decodeCmd]
  | enc17 pattern => simp [encode, decode, decodeRom]
  | _ => rfl

/-- The format and the address of every instruction's word, from the lemma of each constructor. -/
theorem wordFormat (i : Instr) : Laws.WordFormat.Statement i := by
  cases i with
  | enc17 pattern => exact Laws.WordFormat.enc17 pattern
  | nop | tick | setDigit | init => trivial
  | _ => rfl

theorem encode_of_romRow_none {i : Instr} (h : i.romRow = none) : ∃ w, encode i = .cmd w := by
  have hi := wordFormat i
  cases he : encode i with
  | cmd w => exact ⟨w, rfl⟩
  | rom w => simp only [Laws.WordFormat.Statement, he, h] at hi

theorem romRow_of_encode {i : Instr} {w : BitVec 13} (h : encode i = .rom w) :
    i.romRow = some (romIndexField w).toNat := by
  have hi := wordFormat i
  cases hr : i.romRow with
  | none => simp only [Laws.WordFormat.Statement, h, hr] at hi
  | some row => simp only [Laws.WordFormat.Statement, h, hr] at hi; rw [hi]

theorem romRow_lt {i : Instr} {row : Nat} (h : i.romRow = some row) : row < 18 := by
  cases i <;> cases h <;> decide

theorem command_of_romRow_none {i : Instr} (h : i.romRow = none) :
    ∃ a b, i = .init a b ∨ i = .setDigit a b ∨ i = .tick a b ∨ i = .nop a b := by
  cases i with
  | nop a b => exact ⟨a, b, .inr (.inr (.inr rfl))⟩
  | tick a b => exact ⟨a, b, .inr (.inr (.inl rfl))⟩
  | setDigit index value => exact ⟨index, value, .inr (.inl rfl)⟩
  | init a b => exact ⟨a, b, .inl rfl⟩
  | _ => cases h

theorem decodeTableWord_eq_some {nbits w : Nat} {i : Instr} (h : decodeTableWord nbits w = some i) :
    decode (codeWordOf nbits w) = .ok i := by
  unfold decodeTableWord at h
  split at h
  · cases hd : decode (codeWordOf nbits w) with
    | error r => rw [hd] at h; cases h
    | ok j => rw [hd] at h; cases h; rfl
  · cases h

end Decoding

end Sys2Proof

namespace Sys2Proof.Machine

section StepRules

variable {s : State}

theorem step_of_no_inputs (h : s.inputs = []) : step s = .next s := by
  simp only [step, takeInput, h]
  rfl

theorem step_of_inputs {x : Input} {rest : List Input} (h : s.inputs = x :: rest) :
    step s = performAll (operationsOf x) (setInputs rest s) := by
  simp only [step, takeInput, h, performAll]

theorem step_of_word {w : BitVec 18} {rest : List Input} (h : s.inputs = .word w :: rest) :
    step s = exec (decodeCmd w) (setInputs rest s) := by
  rw [step_of_inputs h, performAll, operationsOf, runAll_singleton]

/-- A word presented ahead of the inputs is run, and the inputs are as they were. -/
theorem step_presentWord (w : BitVec 18) (s : State) : step (presentWord w s) = exec (decodeCmd w) s :=
  step_of_word rfl

theorem execTick_eq_draw {v : DigitValue} {p : Pattern} (a b : Operand) (hi : s.initialised = true)
    (hst : s.st = .nextDigit ∨ s.st = .idle ∧ s.pr = true) (hv : s.dv[s.ad.toNat]? = some v)
    (hp : encodeValue s.enc v.toNat = some p) :
    execTick a b s = .next (drawPattern p (enterState .print s)) := by
  have hnext : nextFsm s.st s.pr s.sc s.strobeTicks = .print := by
    obtain h | ⟨h, hpr⟩ := hst
    · rw [h, nextFsm]
    · rw [h, hpr, nextFsm, if_pos rfl]
  rw [execTick, afterFirstInit_of_initialised hi, twoPasses, hnext]
  exact printDigit_eq hv hp

end StepRules

section Placing

variable {row : BitVec 5} {data : Pattern}

theorem withFetchWord_eq {nbits w : Nat} {i : Instr} (h : decodeTableWord nbits w = some i) (s : State) :
    s.withFetchWord nbits w = placeCodeWord (encode i) s := by
  rw [State.withFetchWord, encode_of_decode (decodeTableWord_eq_some h)]

theorem step_placeCodeWord_of_command {i : Instr} (h : i.romRow = none) (s : State) :
    step (placeCodeWord (encode i) s) = exec i s := by
  obtain ⟨w, hw⟩ := encode_of_romRow_none h
  have hi : decodeCmd w = i := by
    have hd := decode_encode i
    rw [hw] at hd
    exact Except.ok.inj hd
  rw [hw, placeCodeWord, step_presentWord, hi]

theorem step_placeCodeWord_errorRow (data : Pattern) (s : State) :
    step (placeCodeWord (.rom (17#5 ++ data)) s) = .next (placeRow 17#5 data s) := by
  rw [placeCodeWord, romIndexField_append, romDataField_append, if_pos rfl, step_presentWord]
  rfl

theorem execTick_aimPrint {s : State} (a b : Operand) (hi : s.initialised = true) (hl : s.ad.toNat < s.dv.length)
    (hp : encodeValue s.enc row.toNat = some data) :
    execTick a b (aimPrint row s) = .next (drawPattern data (enterState .print (aimPrint row s))) :=
  execTick_eq_draw a b hi (.inl rfl) (List.getElem?_set_self hl) hp

/-- The row that was built in is the row that the aimed Print looks up. -/
theorem step_placeCodeWord_row {s : State} (hne : row ≠ 17#5) (hrow : row.toNat < 18) (hi : s.initialised = true)
    (hl : s.ad.toNat < s.dv.length) :
    step (placeCodeWord (.rom (row ++ data)) s) =
      .next (drawPattern data (enterState .print (aimPrint row (placeRow row data s)))) := by
  have hp : encodeValue (placeRow row data s).enc row.toNat = some data :=
    Vector.getElem?_setIfInBounds_self_of_lt hrow
  rw [placeCodeWord, romIndexField_append, romDataField_append, if_neg hne, step_presentWord]
  exact execTick_aimPrint 0#8 0#8 hi hl hp

end Placing

section SettledEncoding

/-- Settles O1: the fields of a word put together are the parts. -/
theorem decodeOfEncodeIsTheInstruction : Obligations.DecodeOfEncodeIsTheInstruction := decode_encode

/-- Settles O2: a word is put together from its fields. -/
theorem encodeOfDecodeIsTheWord : Obligations.EncodeOfDecodeIsTheWord := fun _ _ => encode_of_decode

/-- Settles O3: the masked word has the word's own `op`, and the decoder reads nothing else to select the row. -/
theorem commandWordsDecodeByMaskAndMatch : Obligations.CommandWordsDecodeByMaskAndMatch := by
  intro w
  refine ⟨fun h => ?_, fun h => ?_, fun h => ?_, fun h => ?_, ?_⟩
  · exact congrArg Except.ok (decodeCmd_of_op_nop (opField_eq_of_and_opMask h))
  · exact congrArg Except.ok (decodeCmd_of_op_tick (opField_eq_of_and_opMask h))
  · exact congrArg Except.ok (decodeCmd_of_op_setDigit (opField_eq_of_and_opMask h))
  · exact congrArg Except.ok (decodeCmd_of_op_init (opField_eq_of_and_opMask h))
  · rw [and_opMask]
    obtain h | h | h | h := op_cases (opField w) <;> rw [h] <;> decide

/-- Settles O5: neither meaning reads its operands. -/
theorem ignoredFieldsDoNotMatter : Obligations.IgnoredFieldsDoNotMatter := fun _ _ _ => ⟨rfl, rfl⟩

/-- Settles O7: the one operation of a presented word is what it decodes to. -/
theorem stepRunsTheDecodedInstruction : Obligations.StepRunsTheDecodedInstruction := by
  intro s w rest i hs hd
  have hi : decodeCmd w = i := Except.ok.inj hd
  rw [step_of_word hs, hi]
  rfl

/-- Settles O8: a table word is placed as the encoding of what it decodes to, and each kind of word has its rule. -/
theorem fetchedWordIsRun : Obligations.FetchedWordIsRun := by
  intro s nbits w i h
  rw [withFetchWord_eq h]
  refine ⟨fun hcmd => step_placeCodeWord_of_command hcmd s, fun row data hrom => ⟨?_, fun hne hi hl => ?_⟩⟩
  · rintro rfl
    rw [hrom]
    exact step_placeCodeWord_errorRow data s
  · have hrow : row.toNat < 18 := by simpa using romRow_lt (romRow_of_encode hrom)
    rw [hrom]
    exact step_placeCodeWord_row hne hrow hi hl

/-- Settles O9: an input stands for no ROM row, so for command rows only. -/
theorem onlyTheFourOperationsCanBeInvoked : Obligations.OnlyTheFourOperationsCanBeInvoked :=
  ⟨fun _ _ h => command_of_romRow_none (operationsOf_not_rom h), fun _ _ _ h => step_of_inputs h⟩

/-- Settles O10: the cycle without an operation is a NOP. -/
theorem stepWithoutInputChangesNothing : Obligations.StepWithoutInputChangesNothing := fun _ => step_of_no_inputs

/-- Settles O49: the image of each row is compared with its row of the table. -/
theorem rowImagesCarryTheDefaultTable : Obligations.RowImagesCarryTheDefaultTable := by
  intro i row data h hne
  refine ⟨by rw [romRow_of_encode h, romIndexField_append], ?_⟩
  cases i with
  | nop | tick | setDigit | init => cases h
  | enc17 pattern =>
    obtain ⟨hrow, -⟩ := fields_of_rom_eq h
    exact absurd (hrow.symm.trans (romIndexField_append _ _)) hne
  | _ =>
    obtain ⟨rfl, rfl⟩ := fields_of_rom_eq h
    rfl

end SettledEncoding

end Sys2Proof.Machine

/-! PROOFS. The family of 40_encoder.md. What a Print can do, and that in a running state it always draws, since every
digit register holds a row of the table below row 17. From this: no sound state asks for a row outside the table, and
every meaning commutes with a change of the ERROR row. -/

namespace Sys2Proof.Machine

section Printing

variable {s : State}

/-- Everything the Print action can do: a fault without a register, a draw, or a refusal outside the table. -/
theorem printDigit_cases (s : State) :
    (s.dv[s.ad.toNat]? = none ∧ printDigit s = .fault .noDigitRegister) ∨
    ∃ v, s.dv[s.ad.toNat]? = some v ∧
      ((∃ p, encodeValue s.enc v.toNat = some p ∧ printDigit s = .next (drawPattern p s)) ∨
        (18 ≤ v.toNat ∧ printDigit s = .refused .encodeOutsideTable)) := by
  unfold printDigit
  split <;> rename_i h
  · exact .inl ⟨h, rfl⟩
  · exact .inr ⟨_, h, withEncode_cases _ _ s⟩

theorem printDigit_eq_refused {v : DigitValue} (hv : s.dv[s.ad.toNat]? = some v) (h : 18 ≤ v.toNat) :
    printDigit s = .refused .encodeOutsideTable := by
  simp only [printDigit, hv, withEncode, encodeValue_none_iff.2 h]

theorem execTick_eq_printDigit (a b : Operand) (hi : s.initialised = true) (hst : s.st = .nextDigit) :
    execTick a b s = printDigit (enterState .print s) := by
  rw [execTick, afterFirstInit_of_initialised hi, twoPasses, hst]
  rfl

theorem execTick_eq_refused {v : DigitValue} (a b : Operand) (hi : s.initialised = true) (hst : s.st = .nextDigit)
    (hv : s.dv[s.ad.toNat]? = some v) (h : 18 ≤ v.toNat) : execTick a b s = .refused .encodeOutsideTable :=
  (execTick_eq_printDigit a b hi hst).trans (printDigit_eq_refused hv h)

/-- The active register exists and holds a DigitValue, whose row is in the table and is not the ERROR row. -/
theorem Running.activeDigit (hr : Running s) :
    ∃ v, s.dv[s.ad.toNat]? = some v ∧ v.toNat ≤ Config.maxDigitValue ∧ ∃ p, encodeValue s.enc v.toNat = some p := by
  have hl : s.ad.toNat < s.dv.length := hr.registers ▸ hr.activeInRange
  have hle := hr.digitsValid _ (List.getElem_mem hl)
  have hlt : (s.dv[s.ad.toNat]).toNat < 18 := hle.trans_lt (by decide)
  exact ⟨_, List.getElem?_eq_getElem hl, hle, _, encodeValue_some_iff.2 ⟨hlt, rfl⟩⟩

end Printing

section Refusals

variable {s : State} {i : Instr}

theorem storeDigit_ne_refused (index value : Nat) (r : Refusal) : storeDigit index value s ≠ .refused r := by
  unfold storeDigit
  split <;> simp

theorem countIdle_ne_refused (r : Refusal) : countIdle s ≠ .refused r := by
  unfold countIdle
  split <;> simp

theorem afterFirstInit_eq_refused {r : Result} (h : afterFirstInit s r = .refused .encodeOutsideTable) :
    s.initialised = true ∧ r = .refused .encodeOutsideTable := by
  unfold afterFirstInit at h
  split at h
  · exact ⟨‹_›, h⟩
  · cases h

theorem execInit_ne_encodeOutsideTable (a b : Operand) : execInit a b s ≠ .refused .encodeOutsideTable := by
  unfold execInit
  split <;> simp

theorem execSetDigit_ne_encodeOutsideTable (index value : Operand) :
    execSetDigit index value s ≠ .refused .encodeOutsideTable := by
  intro h
  obtain ⟨-, h⟩ := afterFirstInit_eq_refused h
  split at h
  · exact storeDigit_ne_refused _ _ _ h
  · cases h
  · cases h

theorem printDigit_refused_outside {r : Refusal} (h : printDigit s = .refused r) :
    ∃ v, s.dv[s.ad.toNat]? = some v ∧ 18 ≤ v.toNat := by
  obtain ⟨-, he⟩ | ⟨v, hv, ⟨p, -, he⟩ | ⟨hle, -⟩⟩ := printDigit_cases s
  · rw [he] at h; cases h
  · rw [he] at h; cases h
  · exact ⟨v, hv, hle⟩

theorem actionOf_refused_outside {st : FsmState} {r : Refusal} (h : actionOf st (enterState st s) = .refused r) :
    ∃ v, s.dv[s.ad.toNat]? = some v ∧ 18 ≤ v.toNat := by
  cases st with
  | init => cases h
  | idle => exact absurd h (countIdle_ne_refused r)
  | print => exact printDigit_refused_outside (s := enterState .print s) h
  | nextDigit => cases h

/-- Only a Print raises this refusal, and only for an active register outside the table. -/
theorem exec_refused_outside (h : exec i s = .refused .encodeOutsideTable) :
    s.initialised = true ∧ ∃ v, s.dv[s.ad.toNat]? = some v ∧ 18 ≤ v.toNat := by
  cases hrow : i.romRow with
  | some row => rw [exec_romRow hrow] at h; cases h
  | none =>
    obtain ⟨a, b, rfl | rfl | rfl | rfl⟩ := command_of_romRow_none hrow
    · exact absurd h (execInit_ne_encodeOutsideTable a b)
    · exact absurd h (execSetDigit_ne_encodeOutsideTable a b)
    · obtain ⟨hi, h⟩ := afterFirstInit_eq_refused h
      exact ⟨hi, actionOf_refused_outside h⟩
    · cases h

end Refusals

section ErrorRow

variable {s : State} (p : Pattern)

theorem encodeValue_withErrorRow {v : Nat} (h : v ≠ 17) :
    encodeValue (s.withErrorRow p).enc v = encodeValue s.enc v :=
  Vector.getElem?_set_ne (by decide) h.symm

/-- A change of the state that leaves the model's own field `initialised` passes through the test for the first INIT. -/
theorem afterFirstInit_mapNext {f : State → State} {r r' : Result} (hf : (f s).initialised = s.initialised)
    (h : s.initialised = true → r' = mapNext f r) : afterFirstInit (f s) r' = mapNext f (afterFirstInit s r) := by
  cases hi : s.initialised with
  | false => rw [afterFirstInit_of_not_initialised hi, afterFirstInit_of_not_initialised (hf.trans hi), mapNext]
  | true => rw [afterFirstInit_of_initialised hi, afterFirstInit_of_initialised (hf.trans hi), h hi]

theorem countIdle_withErrorRow :
    countIdle (s.withErrorRow p) = mapNext (State.withErrorRow p) (countIdle s) := by
  rw [countIdle, countIdle, apply_ite (mapNext (State.withErrorRow p))]
  rfl

theorem storeDigit_withErrorRow (index value : Nat) :
    storeDigit index value (s.withErrorRow p) = mapNext (State.withErrorRow p) (storeDigit index value s) := by
  rw [storeDigit, storeDigit, apply_ite (mapNext (State.withErrorRow p))]
  rfl

theorem execInit_withErrorRow (a b : Operand) :
    execInit a b (s.withErrorRow p) = mapNext (State.withErrorRow p) (execInit a b s) := by
  rw [execInit, execInit, apply_ite (mapNext (State.withErrorRow p))]
  rfl

theorem execSetDigit_withErrorRow (index value : Operand) :
    execSetDigit index value (s.withErrorRow p) = mapNext (State.withErrorRow p) (execSetDigit index value s) := by
  refine afterFirstInit_mapNext rfl fun _ => ?_
  have hn : (s.withErrorRow p).n = s.n := rfl
  rw [hn]
  cases classifySetDigit s.n (operand index) (operand value) with
  | accepted => exact storeDigit_withErrorRow p _ _
  | invalidDigitIndex => rfl
  | invalidDigitValue => rfl

/-- The row that a Print looks up in a running state is the row of a DigitValue, so it is not row 17. -/
theorem Running.printDigit_withErrorRow (hr : Running s) (st : FsmState) :
    printDigit (enterState st (s.withErrorRow p)) =
      mapNext (State.withErrorRow p) (printDigit (enterState st s)) := by
  obtain ⟨v, hv, hle, q, hq⟩ := hr.activeDigit
  have hne : v.toNat ≠ 17 := (hle.trans_lt (by decide)).ne
  have hq' : encodeValue (s.withErrorRow p).enc v.toNat = some q := (encodeValue_withErrorRow p hne).trans hq
  calc printDigit (enterState st (s.withErrorRow p))
      = .next (drawPattern q (enterState st (s.withErrorRow p))) := printDigit_eq hv hq'
    _ = mapNext (State.withErrorRow p) (.next (drawPattern q (enterState st s))) := rfl
    _ = mapNext (State.withErrorRow p) (printDigit (enterState st s)) := by
      rw [printDigit_eq (s := enterState st s) hv hq]

theorem Running.actionOf_withErrorRow (hr : Running s) (st : FsmState) :
    actionOf st (enterState st (s.withErrorRow p)) =
      mapNext (State.withErrorRow p) (actionOf st (enterState st s)) := by
  cases st with
  | init => rfl
  | idle => exact countIdle_withErrorRow p (s := enterState .idle s)
  | print => exact hr.printDigit_withErrorRow p .print
  | nextDigit => rfl

theorem Sound.execTick_withErrorRow (hs : Sound s) (a b : Operand) :
    execTick a b (s.withErrorRow p) = mapNext (State.withErrorRow p) (execTick a b s) :=
  afterFirstInit_mapNext rfl fun hi => (hs.running hi).actionOf_withErrorRow p _

end ErrorRow

section PlacedOutside

variable {w : BitVec 13}

theorem decodeRom_outside (h : 17 < (romIndexField w).toNat) : decodeRom w = .error .romIndexOutsideTable := by
  unfold decodeRom
  split
  case h_19 => rfl
  all_goals omega

theorem codeWordOf_rom (w : BitVec 13) : codeWordOf 16 w.toNat = .rom w := by
  rw [codeWordOf, if_pos (by decide), BitVec.ofNat_toNat, BitVec.setWidth_eq]

/-- The Print at which the image is aimed asks for the row that the image names. -/
theorem step_placeCodeWord_outside {s : State} (h : 17 < (romIndexField w).toNat) (hi : s.initialised = true)
    (hl : s.ad.toNat < s.dv.length) : step (placeCodeWord (.rom w) s) = .refused .encodeOutsideTable := by
  have hne : romIndexField w ≠ 17#5 := fun he => by simp [he] at h
  rw [placeCodeWord, if_neg hne, step_presentWord]
  exact execTick_eq_refused 0#8 0#8 hi rfl (List.getElem?_set_self hl) h

end PlacedOutside

section SettledEncoder

/-- Settles O40: the only lookup of an operation is the Print's, and in a sound state it is of another row. -/
theorem errorRowHasNoInfluence : Obligations.ErrorRowHasNoInfluence := by
  intro i s p hs
  cases hrow : i.romRow with
  | some row => rw [exec_romRow hrow, exec_romRow hrow, mapNext]
  | none =>
    obtain ⟨a, b, rfl | rfl | rfl | rfl⟩ := command_of_romRow_none hrow
    · exact execInit_withErrorRow p a b
    · exact execSetDigit_withErrorRow p a b
    · exact hs.execTick_withErrorRow p a b
    · rfl

/-- Settles O50: the Print that follows an advance draws the row of the active register, and the source fixes three
rows. -/
theorem sourcePatternsReachThePins : Obligations.SourcePatternsReachThePins := by
  intro s hs hi hst
  obtain ⟨v, hv, -, p, hp⟩ := (hs.running hi).activeDigit
  obtain ⟨hzero, hseven, hblank⟩ := hs.sourceRows
  have hseg : ∀ {u : DigitValue} {q : Pattern}, s.dv[s.ad.toNat]? = some u → encodeValue s.enc u.toNat = some q →
      segmentLevels p = segmentLevels q := by
    intro u q hu hq
    cases hv.symm.trans hu
    cases hp.symm.trans hq
    rfl
  exact ⟨_, execTick_eq_draw 0#8 0#8 hi (.inl hst) hv hp,
    fun h => hseg h (encodeValue_some_iff.2 ⟨by decide, hzero⟩),
    fun h => hseg h (encodeValue_some_iff.2 ⟨by decide, hseven⟩),
    fun h => hseg h (encodeValue_some_iff.2 ⟨by decide, hblank⟩)⟩

/-- Settles O51: the refusal names an active register outside the table, and a running state has a DigitValue there. -/
theorem encodeOutsideTheTableHasNoValue : Obligations.EncodeOutsideTheTableHasNoValue := by
  refine ⟨fun _ _ => encodeValue_none_iff, fun s v hi hst hv h => execTick_eq_refused 0#8 0#8 hi hst hv h, ?_⟩
  intro i s hs h
  obtain ⟨hi, v, hv, hout⟩ := exec_refused_outside h
  have hle := (hs.running hi).digitsValid v (List.mem_of_getElem? hv)
  exact absurd (hout.trans hle) (by decide)

/-- Settles O12: the decoder has no row at the address, and the aimed Print asks for it. -/
theorem stepRefusesRomRowsOutsideTheTable : Obligations.StepRefusesRomRowsOutsideTheTable := by
  intro w h
  refine ⟨decodeRom_outside h, fun s hi hl => ?_⟩
  rw [State.withFetchWord, codeWordOf_rom]
  exact step_placeCodeWord_outside h hi hl

/-- Settles O48: every ROM row is a lookup, which writes nothing. -/
theorem encodeRowsReturnTheTable : Obligations.EncodeRowsReturnTheTable := by
  intro s p
  refine ⟨fun v h => encodeValue_some_iff.2 ⟨h, rfl⟩, ?_⟩
  refine ⟨?_, ?_, ?_, ?_, ?_, ?_, ?_, ?_, ?_, ?_, ?_, ?_, ?_, ?_, ?_, ?_, ?_, ?_⟩
  all_goals exact exec_romRow rfl

/-- The rows of the DigitValues, without the ERROR row, whose contents are open. -/
theorem reset_digitRows_nodup : (State.reset.enc.toList.take 17).Nodup := by decide

/-- Settles O52: the rows below row 17 are a list without repetition. -/
theorem defaultPatternsAreDistinct : Obligations.DefaultPatternsAreDistinct := by
  intro i j hi hj hne heq
  have hlen : (State.reset.enc.toList.take 17).length = 17 := rfl
  have hi' := hi.trans_eq hlen.symm
  have hj' := hj.trans_eq hlen.symm
  have hrow : (State.reset.enc.toList.take 17)[i]'hi' = (State.reset.enc.toList.take 17)[j]'hj' := by
    rw [List.getElem_take, List.getElem_take, Vector.getElem_toList, Vector.getElem_toList, heq]
  exact hne (reset_digitRows_nodup.getElem_inj_iff.1 hrow)

end SettledEncoder

end Sys2Proof.Machine

/-! PROOFS. The family of 41_initialize.md. An INIT has two outcomes, one for each side of the count 8, and neither reads
`initial_value`; the display it starts depends on the count, the constants and the input stream alone. -/

namespace Sys2Proof.Machine

section Starting

variable {s u : State} {a : Operand}

theorem execInit_eq_refused (b : Operand) (h : Config.maxDigits < operand a) :
    execInit a b s = .refused .digitCountAboveEight :=
  if_pos h

theorem effectiveCount_of_le_one {k : Nat} (h : k ≤ 1) : effectiveCount k = 1 := max_eq_right h

theorem execInit_of_le_one (b : Operand) (h : operand a ≤ 1) : execInit a b s = .next (startDisplay 1 s) := by
  rw [execInit_eq b (h.trans (by decide)), effectiveCount_of_le_one h]

/-- A start of the display writes every field but the constants and the input stream (41_initialize.md R91). -/
theorem startDisplay_congr (hstrobe : s.strobeTicks = u.strobeTicks) (henc : s.enc = u.enc)
    (hwidth : s.scWidth = u.scWidth) (hinputs : s.inputs = u.inputs) (count : Nat) :
    startDisplay count s = startDisplay count u := by
  rw [startDisplay, startDisplay, hstrobe, henc, hwidth, hinputs]

theorem execInit_congr (hstart : ∀ count, startDisplay count s = startDisplay count u) (b : Operand) :
    execInit a b s = execInit a b u := by
  obtain h | h := Nat.lt_or_ge Config.maxDigits (operand a)
  · rw [execInit_eq_refused b h, execInit_eq_refused b h]
  · rw [execInit_eq b h, execInit_eq b h, hstart]

/-- In a display just started every register below the count exists, so SET_DIGIT is accepted there. -/
theorem execSetDigit_startDisplay {count : Nat} {index value : Operand} (hindex : operand index < count)
    (hvalue : operand value ≤ Config.maxDigitValue) :
    execSetDigit index value (startDisplay count s) =
      .next (setPending (putDigit (operand index) (BitVec.ofNat 5 (operand value)) (startDisplay count s))) :=
  execSetDigit_of_accepts rfl ⟨hindex, hvalue⟩ (hindex.trans_eq List.length_replicate.symm)

end Starting

section SettledInitialize

/-- Settles O18: the display that an INIT starts is the same from both states, and a start sets the model's flag. -/
theorem initForgetsTheEarlierState : Obligations.InitForgetsTheEarlierState := by
  intro a b s u hstrobe henc hwidth hinputs
  refine ⟨execInit_congr (startDisplay_congr hstrobe henc hwidth hinputs) b, fun t h => ?_⟩
  obtain ⟨-, rfl⟩ := execInit_next a b h
  exact startDisplay_initialised _ _

/-- Settles O4: each word is the encoding of the instruction that it stands for. -/
theorem wordsOfTheSpecDecode : Obligations.WordsOfTheSpecDecode :=
  ⟨decode_encode (.nop 0xAB#8 0xCD#8), decode_encode (.tick 0#8 0#8), decode_encode (.setDigit 1#8 7#8),
    decode_encode (.init 3#8 16#8), decode_encode .enc7, decode_encode (.enc17 0#8)⟩

/-- Settles O15: the count is tested before anything is written. -/
theorem initRefusesMoreThanEightDigits : Obligations.InitRefusesMoreThanEightDigits :=
  fun _ b _ h => execInit_eq_refused b h

/-- Settles O16: the meaning does not read the second operand, and a started display holds BLANK in every register. -/
theorem initialValueHasNoEffect : Obligations.InitialValueHasNoEffect := by
  refine fun a b c s => ⟨rfl, fun t h v hv => ?_⟩
  obtain ⟨-, rfl⟩ := execInit_next a b h
  exact List.eq_of_mem_replicate hv

/-- Settles O17: both counts start a display of one digit, whose only register has the index 0. -/
theorem initOfZeroDigitsIsOneDigit : Obligations.InitOfZeroDigitsIsOneDigit := by
  intro b c s
  have hzero : execInit 0#8 b s = .next (startDisplay 1 s) := execInit_of_le_one b (by decide)
  have hone : execInit 1#8 c s = .next (startDisplay 1 s) := execInit_of_le_one c (by decide)
  exact ⟨hzero.trans hone.symm, startDisplay 1 s, hzero, rfl, rfl, rfl,
    fun _ hv => execSetDigit_startDisplay (by decide) hv⟩

end SettledInitialize

end Sys2Proof.Machine

/-! PROOFS. The family of 42_set_digit.md. An accepted SET_DIGIT is one store, a rejected one leaves the state as it is,
and which of the two happens depends on N and the operands alone, so no value of the multiplexer's own registers
matters. -/

namespace Sys2Proof.Machine

section StoreFrame

variable {s t : State} {index value : Operand}

theorem not_accepts_iff : ¬ s.accepts index value ↔ s.n ≤ operand index ∨ Config.maxDigitValue < operand value := by
  rw [State.accepts, not_and_or, Nat.not_lt, Nat.not_le]

theorem execSetDigit_of_not_accepts (hi : s.initialised = true) (hr : ¬ s.accepts index value) :
    execSetDigit index value s = .next s := by
  rw [execSetDigit, afterFirstInit_of_initialised hi]
  cases hc : classifySetDigit s.n (operand index) (operand value) with
  | accepted => exact absurd (classifySetDigit_accepted.1 hc) hr
  | invalidDigitIndex => rfl
  | invalidDigitValue => rfl

/-- SET_DIGIT writes no register but the indexed one (10_state.md R35). -/
theorem execSetDigit_otherRegister (h : execSetDigit index value s = .next t) {j : Nat} (hj : j ≠ operand index) :
    t.dv[j]? = s.dv[j]? := by
  obtain ⟨-, ⟨-, -, rfl⟩ | ⟨-, rfl⟩⟩ := execSetDigit_next h
  · exact List.getElem?_set_ne hj.symm
  · rfl

/-- SET_DIGIT does not read the state register, the counter and the pointer: it carries any values of them through
(42_set_digit.md R104). -/
theorem execSetDigit_withMultiplexer (h : execSetDigit index value s = .next t) (x : FsmState) (c : Nat)
    (d : BitVec 3) :
    execSetDigit index value (enterState x (setCounter c (setActive d s))) =
      .next (enterState x (setCounter c (setActive d t))) := by
  obtain ⟨hi, ⟨ha, hl, rfl⟩ | ⟨hr, rfl⟩⟩ := execSetDigit_next h
  · exact execSetDigit_of_accepts (s := enterState x (setCounter c (setActive d s))) hi ha hl
  · exact execSetDigit_of_not_accepts hi hr

end StoreFrame

section SettledSetDigit

/-- Settles O22: both outcomes keep every other field, and both are the same whatever the multiplexer's own registers
hold. -/
theorem setDigitLeavesTheRestAlone : Obligations.SetDigitLeavesTheRestAlone := by
  intro index value s t h
  have hdv : ∀ j : Nat, j ≠ index.toNat → t.dv[j]? = s.dv[j]? := fun j hj => execSetDigit_otherRegister h hj
  have hmux := execSetDigit_withMultiplexer h
  obtain ⟨-, ⟨-, -, rfl⟩ | ⟨-, rfl⟩⟩ := execSetDigit_next h
  all_goals exact ⟨rfl, rfl, rfl, rfl, rfl, rfl, rfl, rfl, rfl, rfl, rfl, hdv, hmux⟩

/-- Settles O20: an accepted SET_DIGIT is one store, and a value up to 16 fits the 5 bits of a register. -/
theorem acceptedSetDigitStoresAndSetsTheFlag : Obligations.AcceptedSetDigitStoresAndSetsTheFlag :=
  fun _ _ _ hi hl hindex hvalue =>
    ⟨execSetDigit_of_accepts hi ⟨hindex, hvalue⟩ (hindex.trans_eq hl.symm), toNat_digitValue_of_le hvalue⟩

/-- Settles O21: operands that are not both in range are not accepted, and NOP answers the same state by definition. -/
theorem rejectedSetDigitIsANop : Obligations.RejectedSetDigitIsANop := by
  intro index value s hi hout
  have hnop : exec (.setDigit index value) s = .next s := execSetDigit_of_not_accepts hi (not_accepts_iff.2 hout)
  exact ⟨hnop, hnop⟩

end SettledSetDigit

end Sys2Proof.Machine

/-! PROOFS. The family of 43_tick.md. First one TICK: its transition pass, then one rule for each of the three actions
that a transition leads to. Then sequences of TICKs: a dwell, which is counted through, advanced and drawn, and N dwells,
after which the pointer and with it the pins are back. -/

namespace Sys2Proof.Machine

section Transitions

variable {s t : State}

/-- No transition leads to Init (43_tick.md R112). -/
theorem nextFsm_ne_init (st : FsmState) (pr : Bool) (sc strobeTicks : Nat) : nextFsm st pr sc strobeTicks ≠ .init := by
  cases st with
  | idle => unfold nextFsm; split_ifs <;> simp
  | _ => simp [nextFsm]

theorem nextFsm_idle (pr : Bool) (sc strobeTicks : Nat) :
    nextFsm .idle pr sc strobeTicks = if pr then .print else if strobeTicks ≤ sc then .nextDigit else .idle := by
  simp only [nextFsm, strobeExpired_iff]

theorem nextFsm_eq_idle
    (hst : s.st = .init ∨ s.st = .print ∨ s.st = .idle ∧ s.pr = false ∧ s.sc < s.strobeTicks) :
    nextFsm s.st s.pr s.sc s.strobeTicks = .idle := by
  obtain hinit | hprint | ⟨hidle, hpr, hsc⟩ := hst
  · rw [hinit, nextFsm]
  · rw [hprint, nextFsm]
  · simp [hidle, nextFsm_idle, hpr, hsc]

/-- In an Idle state the counter is at least 1, so there the compare with 0 answers what the compare with 1 does
(43_tick.md R132). -/
theorem Running.nextFsm_zero_eq_one (hr : Running s) : nextFsm s.st s.pr s.sc 0 = nextFsm s.st s.pr s.sc 1 := by
  cases hst : s.st with
  | idle => rw [nextFsm_idle, nextFsm_idle, if_pos (Nat.zero_le _), if_pos (hr.idleCounted hst)]
  | _ => rfl

/-- An action does not write the state register, which the transition pass has written. -/
theorem actionOf_st {x : FsmState} (h : actionOf x s = .next t) : t.st = s.st := by
  cases x with
  | init => cases h; rfl
  | idle =>
    obtain ⟨-, rfl⟩ := countIdle_next h
    rfl
  | print =>
    obtain ⟨v, p, -, -, rfl⟩ := printDigit_next h
    rfl
  | nextDigit => cases h; rfl

/-- A TICK is its two passes: the action of the new state, after the transition to it (43_tick.md R111). -/
theorem execTick_eq_actionOf (a b : Operand) (hi : s.initialised = true) {x : FsmState}
    (hx : nextFsm s.st s.pr s.sc s.strobeTicks = x) : execTick a b s = actionOf x (enterState x s) := by
  rw [execTick, afterFirstInit_of_initialised hi, twoPasses, hx]

theorem execTick_st (a b : Operand) (h : execTick a b s = .next t) : t.st = nextFsm s.st s.pr s.sc s.strobeTicks := by
  obtain ⟨-, h⟩ := afterFirstInit_next h
  exact actionOf_st h

end Transitions

section Actions

variable {s : State} (a b : Operand)

theorem countIdle_eq_fault {w : Nat} (hw : s.scWidth = some w) (hfull : s.sc + 1 = 2 ^ w) :
    countIdle s = .fault .strobeCounterOverflow := by
  simp [countIdle, counterHolds, hw, hfull]

theorem execTick_eq_count (hi : s.initialised = true)
    (hst : s.st = .init ∨ s.st = .print ∨ s.st = .idle ∧ s.pr = false ∧ s.sc < s.strobeTicks)
    (hc : s.canCountTo (s.sc + 1)) : execTick a b s = .next (setCounter (s.sc + 1) (enterState .idle s)) := by
  rw [execTick_eq_actionOf a b hi (nextFsm_eq_idle hst)]
  exact countIdle_eq hc

theorem execTick_eq_advance (hi : s.initialised = true) (hst : s.st = .idle) (hpr : s.pr = false)
    (hsc : s.strobeTicks ≤ s.sc) :
    execTick a b s = .next (setActive (followingDigit s.n s.ad) (setCounter 0 (enterState .nextDigit s))) := by
  have hx : nextFsm s.st s.pr s.sc s.strobeTicks = .nextDigit := by simp [hst, nextFsm_idle, hpr, hsc]
  rw [execTick_eq_actionOf a b hi hx]
  rfl

/-- In a running state a TICK into Print always draws, for the active digit has a register and its value a pattern. -/
theorem Running.execTick_draws (hr : Running s) (hi : s.initialised = true)
    (hst : s.st = .nextDigit ∨ s.st = .idle ∧ s.pr = true) :
    ∃ v p, s.dv[s.ad.toNat]? = some v ∧ encodeValue s.enc v.toNat = some p ∧
      execTick a b s = .next (drawPattern p (enterState .print s)) := by
  obtain ⟨v, hv, -, p, hp⟩ := hr.activeDigit
  exact ⟨v, p, hv, hp, execTick_eq_draw a b hi hst hv hp⟩

theorem Running.execTick_completes (hr : Running s) (hi : s.initialised = true) (hc : s.canCountTo (s.sc + 1)) :
    ∃ t, execTick a b s = .next t := by
  cases hx : nextFsm s.st s.pr s.sc s.strobeTicks with
  | init => exact absurd hx (nextFsm_ne_init _ _ _ _)
  | idle => exact ⟨_, (execTick_eq_actionOf a b hi hx).trans (countIdle_eq (s := enterState .idle s) hc)⟩
  | print =>
    obtain ⟨v, hv, -, p, hp⟩ := hr.activeDigit
    exact ⟨_, (execTick_eq_actionOf a b hi hx).trans (printDigit_eq (s := enterState .print s) hv hp)⟩
  | nextDigit => exact ⟨_, execTick_eq_actionOf a b hi hx⟩

end Actions

section StrobeConstant

variable {s : State} (c : Nat)

theorem countIdle_withStrobeTicks :
    countIdle (s.withStrobeTicks c) = mapNext (State.withStrobeTicks c) (countIdle s) := by
  rw [countIdle, countIdle, apply_ite (mapNext (State.withStrobeTicks c))]
  rfl

theorem printDigit_withStrobeTicks :
    printDigit (s.withStrobeTicks c) = mapNext (State.withStrobeTicks c) (printDigit s) := by
  obtain ⟨hnone, he⟩ | ⟨v, hv, ⟨p, hp, he⟩ | ⟨hout, he⟩⟩ := printDigit_cases s <;> rw [he]
  · simp only [printDigit, withStrobeTicks_dv, withStrobeTicks_ad, hnone, mapNext]
  · exact printDigit_eq (s := s.withStrobeTicks c) hv hp
  · exact printDigit_eq_refused (s := s.withStrobeTicks c) hv hout

/-- Only the transition pass reads S. -/
theorem actionOf_withStrobeTicks (x : FsmState) :
    actionOf x (s.withStrobeTicks c) = mapNext (State.withStrobeTicks c) (actionOf x s) := by
  cases x with
  | init => rfl
  | idle => exact countIdle_withStrobeTicks c
  | print => exact printDigit_withStrobeTicks c
  | nextDigit => rfl

end StrobeConstant

section Pins

theorem segmentLevels_get_eq_ite (p : Pattern) (k : Nat) (h : k < 8) :
    (segmentLevels p)[k] = if p.getLsbD k then .high else .low :=
  segmentLevels_get p k h

theorem segmentLevels_blank (k : Nat) (h : k < 8) : (segmentLevels 0x00#8)[k] = .low := by
  rw [segmentLevels_get, BitVec.getLsbD_zero, levelOf, if_neg (by decide)]

theorem commonLevels_get_eq_ite {n j k : Nat} (h : k < n) :
    (commonLevels n j)[k]? = some (if k = j then .low else .high) := by
  split_ifs with hk
  · subst hk
    exact commonLevels_get_self h
  · exact commonLevels_get_ne h hk

end Pins

section SettledTick

/-- Settles O26: the state after a TICK is the one of the transition pass, and each action is one of the three outcomes of
a TICK. -/
theorem tickFollowsTheStateTable : Obligations.TickFollowsTheStateTable := by
  intro a b s hs hi hc
  obtain ⟨t, ht⟩ := (hs.running hi).execTick_completes a b hi hc
  have hst := execTick_st a b ht
  refine ⟨t, ht, fun h => ?_, fun h => ?_, fun h => ?_, fun h => ?_, ?_⟩
  · rw [hst, h, nextFsm]
  · rw [hst, h, nextFsm_idle]
  · rw [hst, h, nextFsm]
  · rw [hst, h, nextFsm]
  obtain ⟨-, ⟨-, -, rfl⟩ | ⟨-, v, p, hv, hp, rfl⟩ | ⟨-, -, -, rfl⟩⟩ := execTick_next a b ht
  · exact ⟨fun _ => rfl, by simp, by simp⟩
  · exact ⟨by simp, fun _ => ⟨rfl, v, hv, p, hp, rfl, rfl⟩, by simp⟩
  · exact ⟨by simp, by simp, fun _ => rfl⟩

/-- Settles O28: a TICK into Print draws, and of the six effects only a draw and a start write pins. -/
theorem printActionDrawsTheActiveDigit : Obligations.PrintActionDrawsTheActiveDigit := by
  constructor
  · intro a b s hs hi hst
    obtain ⟨v, p, hv, hp, ht⟩ := (hs.running hi).execTick_draws a b hi hst
    exact ⟨v, p, _, hv, hp, ht, rfl, segmentLevels_get_eq_ite p, commonLevels_length _ _,
      fun _ hj => commonLevels_get_eq_ite hj⟩
  · intro i s t h hpins
    cases exec_effect h with
    | draw a b => exact .inl ⟨⟨a, b, rfl⟩, rfl⟩
    | start a b => exact .inr ⟨⟨a, b, rfl⟩, rfl, rfl⟩
    | _ => obtain hseg | hcom := hpins <;> contradiction

/-- Settles O29: the TICK is an advance, and the digit that follows is the next one modulo N. -/
theorem nextDigitActionAdvances : Obligations.NextDigitActionAdvances := by
  intro a b s hs hi hst hpr hsc
  have hr := hs.running hi
  have hpos := hr.countPositive
  have hnext := followingDigit_toNat s.ad hpos hr.countAtMostEight
  refine ⟨_, execTick_eq_advance a b hi hst hpr hsc, rfl, hnext, fun hlast => BitVec.eq_of_toNat_eq ?_⟩
  calc (followingDigit s.n s.ad).toNat
      = (s.n - 1 + 1) % s.n := by rw [hnext, hlast]
    _ = 0 := by rw [Nat.sub_add_cancel hpos, Nat.mod_self]

/-- Settles O46: the transition is the same for 0 and for 1, and no action reads S. -/
theorem zeroStrobeTicksBehaveAsOne : Obligations.ZeroStrobeTicksBehaveAsOne := by
  intro a b s hs hi
  have hx : nextFsm s.st s.pr s.sc 0 = nextFsm s.st s.pr s.sc 1 := (hs.running hi).nextFsm_zero_eq_one
  calc execTick a b (s.withStrobeTicks 0)
      = actionOf _ ((enterState _ (s.withStrobeTicks 1)).withStrobeTicks 0) :=
        execTick_eq_actionOf (s := s.withStrobeTicks 0) a b hi hx
    _ = mapNext (State.withStrobeTicks 0) (actionOf _ (enterState _ (s.withStrobeTicks 1))) :=
        actionOf_withStrobeTicks 0 _
    _ = mapNext (State.withStrobeTicks 0) (execTick a b (s.withStrobeTicks 1)) := by
        rw [execTick_eq_actionOf (s := s.withStrobeTicks 1) a b hi rfl]
        rfl

/-- Settles O13: the masked word has the word's own `op`, and the meaning of NOP answers the state it is given. -/
theorem nopChangesNothing : Obligations.NopChangesNothing :=
  ⟨fun _ h => ⟨_, _, congrArg Except.ok (decodeCmd_of_op_nop (opField_eq_of_and_opMask h))⟩, fun _ _ _ => rfl⟩

/-- Settles O27: the new state is Idle, whose action either counts or faults. -/
theorem idleActionCounts : Obligations.IdleActionCounts := by
  intro a b s hi hst
  refine ⟨execTick_eq_count a b hi hst, fun w hw hfull => ?_⟩
  exact (execTick_eq_actionOf a b hi (nextFsm_eq_idle hst)).trans
    (countIdle_eq_fault (s := enterState .idle s) hw hfull)

/-- Settles O30: the new state is that of the transition pass. -/
theorem noTickLeadsToInit : Obligations.NoTickLeadsToInit := by
  intro a b s t h
  rw [execTick_st a b h]
  exact nextFsm_ne_init _ _ _ _

end SettledTick

section Sequences

variable {s t u : State}

theorem performAll_cons {i : Instr} (is : List Instr) (h : exec i s = .next t) :
    performAll (i :: is) s = performAll is t :=
  runAll_cons_next h

theorem performAll_singleton (i : Instr) (s : State) : performAll [i] s = exec i s := runAll_singleton

theorem performAll_ticksOf_add {j : Nat} (k : Nat) (h : performAll (ticksOf j) s = .next t) :
    performAll (ticksOf (j + k)) s = performAll (ticksOf k) t := by
  rw [ticksOf, List.replicate_add]
  exact runAll_append_next h

theorem performAll_ticksOf_succ {k : Nat} (h : performAll (ticksOf k) s = .next t) (hu : exec tickOf t = .next u) :
    performAll (ticksOf (k + 1)) s = .next u :=
  (performAll_ticksOf_add 1 h).trans ((performAll_singleton tickOf t).trans hu)

theorem clearPending_eq_self (h : s.pr = false) : clearPending s = s := by
  rw [clearPending, ← h]

theorem enterState_eq_self {x : FsmState} (h : s.st = x) : enterState x s = s := by
  rw [enterState, ← h]

theorem setCounter_eq_self {c : Nat} (h : s.sc = c) : setCounter c s = s := by
  rw [setCounter, ← h]

theorem canCountTo_of_le {c d : Nat} (h : s.canCountTo d) (hcd : c ≤ d) : s.canCountTo c :=
  fun w hw => hcd.trans_lt (h w hw)

end Sequences

section Redraw

variable {s : State}

/-- What a TICK into Print leaves, as the schedules speak of it: the active digit shown with its register's value. -/
theorem Running.execTick_redraws (hr : Running s) (hi : s.initialised = true)
    (hst : s.st = .nextDigit ∨ s.st = .idle ∧ s.pr = true) :
    ∃ t, exec tickOf s = .next t ∧ t.st = .print ∧ t.ad = s.ad ∧ t.sc = s.sc ∧ t.pr = false ∧
      ∃ v, t.dv[s.ad.toNat]? = some v ∧ t.pinsShow s.ad.toNat v.toNat := by
  obtain ⟨v, p, hv, hp, ht⟩ := hr.execTick_draws 0#8 0#8 hi hst
  exact ⟨_, ht, rfl, rfl, rfl, rfl, v, hv, p, hp, rfl, rfl⟩

end Redraw

section Dwell

variable {s t u : State} {d e : BitVec 3}

/-- A display between two advances, its digit just drawn after one: the start of a dwell (43_tick.md R125). -/
structure Steady (s : State) : Prop where
  running : Running s
  initialised : s.initialised = true
  printed : s.st = .print
  settled : s.pr = false
  cleared : s.sc = 0
  counts : s.canCountTo s.idleTicks

/-- The dwell counts through its Idle TICKs: the counter stays below S until the last of them. -/
theorem Steady.performAll_idleTicks (hs : Steady s) {k : Nat} (hk : 1 ≤ k) (hle : k ≤ s.idleTicks) :
    performAll (ticksOf k) s = .next (setCounter k (enterState .idle s)) := by
  induction k, hk using Nat.le_induction with
  | base =>
    have hfirst : s.sc + 1 = 1 := by rw [hs.cleared]
    have hcount := execTick_eq_count 0#8 0#8 hs.initialised (.inr (.inl hs.printed))
      (canCountTo_of_le hs.counts (hfirst.trans_le hle))
    rw [hfirst] at hcount
    exact (performAll_singleton tickOf s).trans hcount
  | succ k hk ih =>
    have hbelow : k < s.strobeTicks := by
      have hmax : k + 1 ≤ max s.strobeTicks 1 := hle
      omega
    exact performAll_ticksOf_succ (ih (Nat.le_of_succ_le hle))
      (execTick_eq_count (s := setCounter k (enterState .idle s)) 0#8 0#8 hs.initialised
        (.inr (.inr ⟨rfl, hs.settled, hbelow⟩)) (canCountTo_of_le hs.counts hle))

theorem Steady.performAll_advance (hs : Steady s) :
    performAll (ticksOf (s.idleTicks + 1)) s =
      .next (setActive (followingDigit s.n s.ad) (enterState .nextDigit s)) := by
  have hidle := hs.performAll_idleTicks (le_max_right s.strobeTicks 1) le_rfl
  have hadvance := execTick_eq_advance (s := setCounter s.idleTicks (enterState .idle s)) 0#8 0#8 hs.initialised rfl
    hs.settled (le_max_left s.strobeTicks 1)
  calc performAll (ticksOf (s.idleTicks + 1)) s
      = .next (setActive (followingDigit s.n s.ad) (enterState .nextDigit (setCounter 0 s))) :=
        performAll_ticksOf_succ hidle hadvance
    _ = .next (setActive (followingDigit s.n s.ad) (enterState .nextDigit s)) := by rw [setCounter_eq_self hs.cleared]

/-- `t` is `s` with the digit `d` active and shown, and nothing else different. -/
def ShownOn (d : BitVec 3) (s t : State) : Prop :=
  ∃ v p, s.dv[d.toNat]? = some v ∧ encodeValue s.enc v.toNat = some p ∧
    t = drivePins (segmentLevels p) (commonLevels s.n d.toNat) (setActive d s)

/-- What is shown on a digit depends on nothing that showing another digit changes. -/
theorem ShownOn.trans (ht : ShownOn d s t) (hu : ShownOn e t u) : ShownOn e s u := by
  obtain ⟨_, _, _, _, rfl⟩ := ht
  exact hu

theorem ShownOn.unique (ht : ShownOn d s t) (hu : ShownOn d s u) : t = u := by
  obtain ⟨v, p, hv, hp, rfl⟩ := ht
  obtain ⟨v', p', hv', hp', rfl⟩ := hu
  cases hv.symm.trans hv'
  cases hp.symm.trans hp'
  rfl

/-- Once drawn and with no redraw pending, the display shows the active digit. -/
theorem shownOn_self (hd : s.displaySound) (hst : s.st = .print) (hpr : s.pr = false) : ShownOn s.ad s s := by
  obtain ⟨-, h⟩ | ⟨-, w, -, ⟨p, hp, hseg, hcom⟩, hreg⟩ := hd
  · simp [hst] at h
  obtain ⟨v, hv, rfl⟩ := hreg hpr
  rw [shownDigit_of_ne (by simp [hst])] at hv hcom
  refine ⟨v, p, hv, hp, ?_⟩
  rw [← hseg, ← hcom]
  rfl

theorem Steady.of_shownOn (hs : Steady s) (hd : d.toNat < s.n) (ht : ShownOn d s t) : Steady t := by
  obtain ⟨v, p, -, -, rfl⟩ := ht
  exact { hs with running := { hs.running with
    commonPins := commonLevels_length s.n d.toNat
    activeInRange := hd
    startState := by simp [hs.printed] } }

/-- The dwell ends with the Print of the digit that follows (43_tick.md R125). -/
theorem Steady.performAll_dwell (hs : Steady s) :
    ∃ t, performAll (ticksOf (s.idleTicks + 2)) s = .next t ∧ ShownOn (followingDigit s.n s.ad) s t := by
  obtain ⟨v, hv, -, p, hp⟩ := hs.running.advance.activeDigit
  have hdraw := execTick_eq_draw (s := setActive (followingDigit s.n s.ad) (enterState .nextDigit s)) 0#8 0#8
    hs.initialised (.inl rfl) hv hp
  refine ⟨_, performAll_ticksOf_succ hs.performAll_advance hdraw, v, p, hv, hp, ?_⟩
  calc drawPattern p (enterState .print (setActive (followingDigit s.n s.ad) (enterState .nextDigit s)))
      = drivePins (segmentLevels p) (commonLevels s.n (followingDigit s.n s.ad).toNat)
          (setActive (followingDigit s.n s.ad) (clearPending (enterState .print s))) := rfl
    _ = _ := by rw [enterState_eq_self hs.printed, clearPending_eq_self hs.settled]

/-- `k` dwells move the display on by `k` digits. -/
theorem Steady.performAll_dwells (hs : Steady s) (hself : ShownOn s.ad s s) (k : Nat) :
    ∃ t, performAll (ticksOf (k * (s.idleTicks + 2))) s = .next t ∧ ShownOn ((followingDigit s.n)^[k] s.ad) s t := by
  induction k with
  | zero =>
    rw [Nat.zero_mul]
    exact ⟨s, runAll_nil, hself⟩
  | succ k ih =>
    obtain ⟨t, ht, hshown⟩ := ih
    have hlt : ((followingDigit s.n)^[k] s.ad).toNat < s.n := by
      rw [followingDigit_iterate_toNat hs.running.countAtMostEight hs.running.activeInRange]
      exact Nat.mod_lt _ hs.running.countPositive
    obtain ⟨u, hu, hnext⟩ := (hs.of_shownOn hlt hshown).performAll_dwell
    have hfields : t.idleTicks = s.idleTicks ∧ t.n = s.n ∧ t.ad = (followingDigit s.n)^[k] s.ad := by
      obtain ⟨-, -, -, -, rfl⟩ := hshown
      exact ⟨rfl, rfl, rfl⟩
    obtain ⟨hidle, hn, had⟩ := hfields
    rw [hidle] at hu
    rw [hn, had, ← Function.iterate_succ_apply' (followingDigit s.n)] at hnext
    rw [Nat.succ_mul]
    exact ⟨u, (performAll_ticksOf_add _ ht).trans hu, hshown.trans hnext⟩

end Dwell

section SettledSchedule

/-- Settles O41: INIT, an Idle TICK that leaves the flag INIT has set, and the Print of digit 0, which is BLANK. -/
theorem firstDrawIsInTheSecondTick : Obligations.FirstDrawIsInTheSecondTick := by
  intro a b s ha hrows hc
  obtain ⟨-, -, hblank⟩ := hrows
  have hinit : exec (.init a b) s = .next (startDisplay (effectiveCount (operand a)) s) := execInit_eq b ha
  generalize hcount : effectiveCount (operand a) = count at hinit
  have hpos : 0 < count := hcount ▸ one_le_effectiveCount _
  have hidle : exec tickOf (startDisplay count s) =
      .next (setCounter 1 (enterState .idle (startDisplay count s))) :=
    execTick_eq_count 0#8 0#8 rfl (.inl rfl) hc
  have hprint : exec tickOf (setCounter 1 (enterState .idle (startDisplay count s))) =
      .next (drawPattern 0x00#8 (enterState .print (setCounter 1 (enterState .idle (startDisplay count s))))) :=
    execTick_eq_draw 0#8 0#8 rfl (.inr ⟨rfl, rfl⟩)
      (List.getElem?_replicate_of_lt hpos) (encodeValue_some_iff.2 ⟨by decide, hblank⟩)
  have hfirst : performAll [.init a b, tickOf] s = _ :=
    (performAll_cons _ hinit).trans ((performAll_singleton _ _).trans hidle)
  have hsecond : performAll [.init a b, tickOf, tickOf] s = _ :=
    (performAll_cons _ hinit).trans ((performAll_cons _ hidle).trans ((performAll_singleton _ _).trans hprint))
  exact ⟨_, _, hfirst, rfl, rfl, rfl, rfl, ⟨rfl, rfl⟩, hsecond, rfl, rfl, rfl, rfl, segmentLevels_blank,
    fun _ hj => commonLevels_get_eq_ite hj⟩

/-- Settles O42: a dwell from its Idle TICKs to the Print of the next digit. -/
theorem dwellIsIdleTicksPlusTwo : Obligations.DwellIsIdleTicksPlusTwo := by
  intro s hs hi hst hpr hsc hc
  have hr := hs.running hi
  have hsteady : Steady s := ⟨hr, hi, hst, hpr, hsc, hc⟩
  obtain ⟨_, ht, v, p, hv, hp, rfl⟩ := hsteady.performAll_dwell
  rw [followingDigit_toNat s.ad hr.countPositive hr.countAtMostEight] at ht hv
  exact ⟨fun k hk hle => hsteady.performAll_idleTicks hk hle, hsteady.performAll_advance, v, p, hv, hp, ht⟩

/-- Settles O43: after N dwells the pointer is back, and the pins show what they showed. -/
theorem fullCycleReturnsToTheSameState : Obligations.FullCycleReturnsToTheSameState := by
  intro s hs hi hd hst hpr hsc hc
  have hr := hs.running hi
  have hself := shownOn_self hd hst hpr
  obtain ⟨t, ht, hshown⟩ := Steady.performAll_dwells ⟨hr, hi, hst, hpr, hsc, hc⟩ hself s.n
  obtain ⟨-, hback⟩ := pointerReturnsAfterAllDigits s.n s.ad hr.countAtMostEight hr.activeInRange
  rw [hback] at hshown
  rw [ht, hshown.unique hself]

/-- Settles O44: the store leaves the multiplexer where it was with the flag set, so the Print is the next TICK, or the
one after an Idle TICK. -/
theorem redrawFollowsWithinTwoTicks : Obligations.RedrawFollowsWithinTwoTicks := by
  intro index value s hs hi ha
  have hr := hs.running hi
  have hstore : exec (.setDigit index value) s = _ :=
    execSetDigit_of_accepts hi ha (ha.1.trans_eq hr.registers.symm)
  have hr' := hr.store ha.2 (operand index)
  constructor
  · intro hst
    rw [performAll_cons _ hstore, performAll_singleton]
    exact hr'.execTick_redraws hi (hst.symm.imp_right fun h => ⟨h, rfl⟩)
  · intro hst hc
    have hidle : exec tickOf _ = _ := execTick_eq_count 0#8 0#8
      (s := setPending (putDigit (operand index) (BitVec.ofNat 5 (operand value)) s)) hi (hst.imp_right .inl) hc
    rw [performAll_cons _ hstore, performAll_cons _ hidle, performAll_singleton]
    exact (hr'.count hc).execTick_redraws hi (.inr ⟨rfl, rfl⟩)

/-- Settles O45: a Print, the Idle TICK that follows every Print, and the advance, still due. -/
theorem pendingRedrawDelaysTheAdvance : Obligations.PendingRedrawDelaysTheAdvance := by
  intro s hs hi hst hpr hsc hc
  obtain ⟨-, p, -, -, hdraw⟩ := (hs.running hi).execTick_draws 0#8 0#8 hi (.inr ⟨hst, hpr⟩)
  have hprint : performAll (ticksOf 1) s = _ := (performAll_singleton tickOf s).trans hdraw
  have hidle : performAll (ticksOf 2) s = _ := performAll_ticksOf_succ hprint
    (execTick_eq_count (s := drawPattern p (enterState .print s)) 0#8 0#8 hi (.inr (.inl rfl)) hc)
  have hadvance := performAll_ticksOf_succ hidle
    (execTick_eq_advance 0#8 0#8 hi rfl rfl (hsc.trans (Nat.le_succ s.sc)))
  exact ⟨_, hprint, rfl, rfl, rfl, rfl, hidle, hadvance⟩

end SettledSchedule

end Sys2Proof.Machine

/-! PROOFS. The family of 70_reset_and_hazards.md. First what a sequence does whose first operation stops, which with
the rule of one step gives the serial order of the requests of one cycle. Then one round of the starvation, a store and two
TICKs, which leads from a Print to a Print of the same digit, and its repetition. -/

namespace Sys2Proof.Machine

section StoppedSequences

variable {s : State} {i : Instr} (is : List Instr)

theorem performAll_cons_fault {f : Fault} (h : exec i s = .fault f) : performAll (i :: is) s = .fault f := by
  simp only [performAll, runAll, h]

theorem performAll_cons_refused {r : Refusal} (h : exec i s = .refused r) : performAll (i :: is) s = .refused r := by
  simp only [performAll, runAll, h]

end StoppedSequences

section StoreRounds

variable {s t : State}

/-- An accepted SET_DIGIT and two TICKs: what is presented over and over in 70_reset_and_hazards.md R168. -/
def storeRound (r : Operand × Operand) : List Instr := [.setDigit r.1 r.2, tickOf, tickOf]

/-- A display that runs and whose last TICK was a Print: the start and the end of a round. -/
structure Printed (s : State) : Prop where
  running : Running s
  initialised : s.initialised = true
  printed : s.st = .print

/-- `t` is a Print reached from `s` without an advance, after `k` Idle TICKs. Digit count and counter width are as they
were, so the operands and counts that were legal still are. -/
structure HeldFor (k : Nat) (s t : State) : Prop extends Printed t where
  active : t.ad = s.ad
  counter : t.sc = s.sc + k
  count : t.n = s.n
  width : t.scWidth = s.scWidth

theorem Printed.heldFor_zero (hs : Printed s) : HeldFor 0 s s := ⟨hs, rfl, rfl, rfl, rfl⟩

theorem HeldFor.trans {j k : Nat} {u : State} (ht : HeldFor j s t) (hu : HeldFor k t u) : HeldFor (j + k) s u where
  toPrinted := hu.toPrinted
  active := hu.active.trans ht.active
  counter := by rw [hu.counter, ht.counter, Nat.add_assoc]
  count := hu.count.trans ht.count
  width := hu.width.trans ht.width

theorem HeldFor.accepts {k : Nat} (ht : HeldFor k s t) {index value : Operand} (ha : s.accepts index value) :
    t.accepts index value :=
  ⟨ha.1.trans_eq ht.count.symm, ha.2⟩

theorem HeldFor.canCountTo {k c : Nat} (ht : HeldFor k s t) (hc : s.canCountTo c) : t.canCountTo c :=
  fun w hw => hc w (ht.width.symm.trans hw)

/-- One round: the store sets the flag, the TICK after the Print counts whatever the counter is, and the next TICK finds
the flag set, so it redraws and does not advance. -/
theorem Printed.performAll_storeRound (hs : Printed s) {r : Operand × Operand} (ha : s.accepts r.1 r.2)
    (hc : s.canCountTo (s.sc + 1)) : ∃ t, performAll (storeRound r) s = .next t ∧ HeldFor 1 s t := by
  have hstore : exec (.setDigit r.1 r.2) s = _ :=
    execSetDigit_of_accepts hs.initialised ha (ha.1.trans_eq hs.running.registers.symm)
  have hcount : exec tickOf _ = _ := execTick_eq_count 0#8 0#8
    (s := setPending (putDigit (operand r.1) (BitVec.ofNat 5 (operand r.2)) s)) hs.initialised
    (.inr (.inl hs.printed)) hc
  have hidle := (hs.running.store ha.2 (operand r.1)).count hc
  obtain ⟨-, p, -, -, hdraw⟩ := hidle.execTick_draws 0#8 0#8 hs.initialised (.inr ⟨rfl, rfl⟩)
  refine ⟨_, ?_, ⟨hidle.draw p, hs.initialised, rfl⟩, rfl, rfl, rfl, rfl⟩
  rw [storeRound, performAll_cons _ hstore, performAll_cons _ hcount, performAll_singleton]
  exact hdraw

theorem Printed.performAll_storeRounds (hs : Printed s) {rounds : List (Operand × Operand)}
    (ha : ∀ r ∈ rounds, s.accepts r.1 r.2) (hc : s.canCountTo (s.sc + rounds.length)) :
    ∃ t, performAll (rounds.flatMap storeRound) s = .next t ∧ HeldFor rounds.length s t := by
  induction rounds generalizing s with
  | nil => exact ⟨s, runAll_nil, hs.heldFor_zero⟩
  | cons r rounds ih =>
    obtain ⟨har, harounds⟩ := List.forall_mem_cons.1 ha
    have hlen : s.sc + (r :: rounds).length = s.sc + 1 + rounds.length := by
      rw [List.length_cons]
      omega
    rw [hlen] at hc
    obtain ⟨t, ht, hst⟩ := hs.performAll_storeRound har (canCountTo_of_le hc (Nat.le_add_right _ _))
    obtain ⟨u, hu, htu⟩ := ih hst.toPrinted (fun x hx => hst.accepts (harounds x hx))
      (hst.counter ▸ hst.canCountTo hc)
    rw [List.flatMap_cons, List.length_cons, Nat.add_comm]
    exact ⟨u, (runAll_append_next ht).trans hu, hst.trans htu⟩

end StoreRounds

section SettledHazards

/-- Settles O11: a step performs the operations that the strobes stand for, and a sequence stops with its first
operation that stops. -/
theorem strobedRequestsHaveASerialOrder : Obligations.StrobedRequestsHaveASerialOrder := by
  intro s rest a b
  refine ⟨fun set tick h => ?_, fun h => ⟨fun t ht => ?_, fun f hf => ?_, fun r hr => ?_⟩, fun h => ?_,
    fun h => ?_, fun h => ?_⟩ <;> rw [step_of_inputs h]
  · exact performAll_singleton (.init a b) _
  · exact (performAll_cons [.setDigit a b] ht).trans (performAll_singleton _ t)
  · exact performAll_cons_fault [.setDigit a b] hf
  · exact performAll_cons_refused [.setDigit a b] hr
  · exact performAll_singleton tickOf _
  · exact performAll_singleton (.setDigit a b) _
  · exact runAll_nil

/-- Settles O47: a round holds the pointer and adds one to the counter, and so do any number of rounds. -/
theorem storesAfterEveryPrintStarveTheAdvance : Obligations.StoresAfterEveryPrintStarveTheAdvance := by
  intro rounds s hs hi hst ha hc
  obtain ⟨t, ht, hheld⟩ := Printed.performAll_storeRounds ⟨hs.running hi, hi, hst⟩ ha hc
  exact ⟨t, ht, hheld.printed, hheld.active, hheld.counter⟩

end SettledHazards

end Sys2Proof.Machine
